-- ==== Sys2Proof/Word.lean ====
section
/-! DEFINITION. The word types of the machine, as 00_scope.md R4 gives their widths. Every value is an unsigned
bit vector and there is no signed quantity (00_scope.md R5). -/

namespace Sys2Proof

/-- A byte: a memory cell, a general register, a timer (R4, R21, R30, R60). -/
abbrev Byte := BitVec 8

/-- A 16-bit word: an instruction word, `I`, `PC`, a call-stack entry (R4, R24, R25, R28). -/
abbrev Word := BitVec 16

/-- The number of a general register: the fields `x` and `y` of an instruction word (R91). -/
abbrev Reg := BitVec 4

/-- The number of a key of the input latch (R32). -/
abbrev Key := BitVec 4

/-- A 12-bit address: the field `nnn` of an instruction word (R91), and the address of a `LOAD` (R42). -/
abbrev Addr12 := BitVec 12

/-- `VF`, general register 15, the flag output (R22). -/
abbrev VF : Reg := 15

end Sys2Proof
end

