-- ==== Sys2Proof/Syntax.lean ====
section
/-! DEFINITION. The 34 instructions of the opcode map (30_encoding.md R96, spec/opcode_table.json), one constructor a
row in the table's order. Every operand is a bit vector of its field's width (R91), so a term holds exactly the operands an
instruction word can spell. The `y` field of 8xy6 and 8xyE is kept as an operand, although no computation uses it
(R99), so that an instruction spells its whole word (log 20). -/

namespace Sys2Proof

inductive Instr where
  /-- 00E0, `CLS` (R190). -/
  | cls
  /-- 00EE, `RET` (R121). -/
  | ret
  /-- 1nnn, `JP nnn` (R122). -/
  | jp (nnn : Addr12)
  /-- 2nnn, `CALL nnn` (R123). -/
  | call (nnn : Addr12)
  /-- 3xkk, `SE Vx, kk` (R124). -/
  | seImm (x : Reg) (kk : Byte)
  /-- 4xkk, `SNE Vx, kk` (R125). -/
  | sneImm (x : Reg) (kk : Byte)
  /-- 5xy0, `SE Vx, Vy` (R126). -/
  | seReg (x y : Reg)
  /-- 6xkk, `LD Vx, kk` (R141). -/
  | ldImm (x : Reg) (kk : Byte)
  /-- 7xkk, `ADD Vx, kk` (R142). -/
  | addImm (x : Reg) (kk : Byte)
  /-- 8xy0, `LD Vx, Vy` (R143). -/
  | ldReg (x y : Reg)
  /-- 8xy1, `OR Vx, Vy` (R144). -/
  | orReg (x y : Reg)
  /-- 8xy2, `AND Vx, Vy` (R145). -/
  | andReg (x y : Reg)
  /-- 8xy3, `XOR Vx, Vy` (R146). -/
  | xorReg (x y : Reg)
  /-- 8xy4, `ADD Vx, Vy` (R147). -/
  | addReg (x y : Reg)
  /-- 8xy5, `SUB Vx, Vy` (R148). -/
  | subReg (x y : Reg)
  /-- 8xy6, `SHR Vx` (R149); `y` is ignored (R99). -/
  | shr (x y : Reg)
  /-- 8xy7, `SUBN Vx, Vy` (R150). -/
  | subnReg (x y : Reg)
  /-- 8xyE, `SHL Vx` (R151); `y` is ignored (R99). -/
  | shl (x y : Reg)
  /-- 9xy0, `SNE Vx, Vy` (R127). -/
  | sneReg (x y : Reg)
  /-- Annn, `LD I, nnn` (R171). -/
  | ldI (nnn : Addr12)
  /-- Bnnn, `JP V0, nnn` (R128). -/
  | jpV0 (nnn : Addr12)
  /-- Cxkk, `RND Vx, kk` (R152). -/
  | rnd (x : Reg) (kk : Byte)
  /-- Dxyn, `DRW Vx, Vy, n` (R191). -/
  | drw (x y : Reg) (n : BitVec 4)
  /-- Ex9E, `SKP Vx` (R201). -/
  | skp (x : Reg)
  /-- ExA1, `SKNP Vx` (R202). -/
  | sknp (x : Reg)
  /-- Fx07, `LD Vx, DT` (R203). -/
  | ldVxDt (x : Reg)
  /-- Fx0A, `LD Vx, K` (R206). -/
  | ldVxKey (x : Reg)
  /-- Fx15, `LD DT, Vx` (R204). -/
  | ldDtVx (x : Reg)
  /-- Fx18, `LD ST, Vx` (R205). -/
  | ldStVx (x : Reg)
  /-- Fx1E, `ADD I, Vx` (R172). -/
  | addI (x : Reg)
  /-- Fx29, `LD F, Vx` (R173). -/
  | ldFont (x : Reg)
  /-- Fx33, `LD B, Vx` (R174). -/
  | ldBcd (x : Reg)
  /-- Fx55, `LD [I], Vx` (R175). -/
  | storeRegs (x : Reg)
  /-- Fx65, `LD Vx, [I]` (R176). -/
  | loadRegs (x : Reg)
  deriving DecidableEq, Repr

end Sys2Proof
end

