-- ==== Sys2Proof/Decode.lean ====
section
/-! DEFINITION. Decoding and encoding (30_encoding.md). The decoder is the two-level lookup of R93, R94 and R100,
total on every word and on every list of bytes; the encoder writes each pattern of R92 and R96 out, field by field. -/

namespace Sys2Proof

/-- `fam = op[15:12]`, the opcode family (R91). -/
def famOf (w : Word) : BitVec 4 := w.extractLsb' 12 4

/-- `x = op[11:8]` (R91). -/
def xOf (w : Word) : BitVec 4 := w.extractLsb' 8 4

/-- `y = op[7:4]` (R91). -/
def yOf (w : Word) : BitVec 4 := w.extractLsb' 4 4

/-- `n = op[3:0]` (R91). -/
def nOf (w : Word) : BitVec 4 := w.extractLsb' 0 4

/-- `kk = op[7:0]` (R91). -/
def kkOf (w : Word) : Byte := w.extractLsb' 0 8

/-- `nnn = op[11:0]` (R91). -/
def nnnOf (w : Word) : Addr12 := w.extractLsb' 0 12

/-- The word two consecutive bytes spell, the byte at the lower address holding bits 15 to 8 (R65, R90). -/
def wordOfBytes (hi lo : Byte) : Word := hi ++ lo

/-- Bits 15 to 8 of a word: the byte at the lower address (R65). -/
def hiByte (w : Word) : Byte := w.extractLsb' 8 8

/-- Bits 7 to 0 of a word: the byte at the higher address (R65). -/
def loByte (w : Word) : Byte := w.extractLsb' 0 8

/-- Why decoding fails. -/
inductive DecodeError where
  /-- The word matches no row of the opcode map (R97, R221). -/
  | unknownInstruction (w : Word)
  /-- Fewer than two bytes were given: an instruction is exactly two (R90). -/
  | truncated
  deriving DecidableEq, Repr

/-- Family 0 is matched on the whole word (R94). -/
def decodeFam0 (w : Word) : Except DecodeError Instr :=
  if w = 0x00E0 then .ok .cls
  else if w = 0x00EE then .ok .ret
  else .error (.unknownInstruction w)

/-- Families 5 and 9 accept `n = 0` only (R94). -/
def decodeNeedsZero (w : Word) (i : Reg → Reg → Instr) : Except DecodeError Instr :=
  if nOf w = 0 then .ok (i (xOf w) (yOf w)) else .error (.unknownInstruction w)

/-- Family 8 is selected by `n` (R94). -/
def decodeFam8 (w : Word) : Except DecodeError Instr :=
  let x := xOf w
  let y := yOf w
  match nOf w with
  | 0x0 => .ok (.ldReg x y)
  | 0x1 => .ok (.orReg x y)
  | 0x2 => .ok (.andReg x y)
  | 0x3 => .ok (.xorReg x y)
  | 0x4 => .ok (.addReg x y)
  | 0x5 => .ok (.subReg x y)
  | 0x6 => .ok (.shr x y)
  | 0x7 => .ok (.subnReg x y)
  | 0xE => .ok (.shl x y)
  | _ => .error (.unknownInstruction w)

/-- Family E is selected by `kk` (R94). -/
def decodeFamE (w : Word) : Except DecodeError Instr :=
  match kkOf w with
  | 0x9E => .ok (.skp (xOf w))
  | 0xA1 => .ok (.sknp (xOf w))
  | _ => .error (.unknownInstruction w)

/-- Family F is selected by `kk` (R94). -/
def decodeFamF (w : Word) : Except DecodeError Instr :=
  let x := xOf w
  match kkOf w with
  | 0x07 => .ok (.ldVxDt x)
  | 0x0A => .ok (.ldVxKey x)
  | 0x15 => .ok (.ldDtVx x)
  | 0x18 => .ok (.ldStVx x)
  | 0x1E => .ok (.addI x)
  | 0x29 => .ok (.ldFont x)
  | 0x33 => .ok (.ldBcd x)
  | 0x55 => .ok (.storeRegs x)
  | 0x65 => .ok (.loadRegs x)
  | _ => .error (.unknownInstruction w)

/-- The decoder: primary dispatch on the family, secondary dispatch where the family overloads several instructions
(R93, R94, R100). Families 0, 5, 8, 9, E and F refuse the words R97 lists. -/
def decode (w : Word) : Except DecodeError Instr :=
  match famOf w with
  | 0x0 => decodeFam0 w
  | 0x1 => .ok (.jp (nnnOf w))
  | 0x2 => .ok (.call (nnnOf w))
  | 0x3 => .ok (.seImm (xOf w) (kkOf w))
  | 0x4 => .ok (.sneImm (xOf w) (kkOf w))
  | 0x5 => decodeNeedsZero w .seReg
  | 0x6 => .ok (.ldImm (xOf w) (kkOf w))
  | 0x7 => .ok (.addImm (xOf w) (kkOf w))
  | 0x8 => decodeFam8 w
  | 0x9 => decodeNeedsZero w .sneReg
  | 0xA => .ok (.ldI (nnnOf w))
  | 0xB => .ok (.jpV0 (nnnOf w))
  | 0xC => .ok (.rnd (xOf w) (kkOf w))
  | 0xD => .ok (.drw (xOf w) (yOf w) (nOf w))
  | 0xE => decodeFamE w
  | _ => decodeFamF w

/-- Decoding from bytes: the first two bytes, high byte first, are the instruction and the rest is handed back (R90). -/
def decodeBytes : List Byte → Except DecodeError (Instr × List Byte)
  | hi :: lo :: rest => (decode (wordOfBytes hi lo)).map fun i => (i, rest)
  | _ => .error .truncated

/-- Format `A`: family and address (R92). -/
def encodeA (fam : BitVec 4) (nnn : Addr12) : Word := fam ++ nnn

/-- Formats `XK` and `X`: family, register and immediate or sub-opcode byte (R92). -/
def encodeXK (fam : BitVec 4) (x : Reg) (kk : Byte) : Word := fam ++ x ++ kk

/-- Formats `XY` and `XYN`: family, two registers and a nibble (R92). -/
def encodeXYN (fam : BitVec 4) (x y : Reg) (n : BitVec 4) : Word := fam ++ x ++ y ++ n

/-- The word of an instruction, from the patterns of R92 and R96. -/
def encode : Instr → Word
  | .cls => 0x00E0
  | .ret => 0x00EE
  | .jp nnn => encodeA 0x1 nnn
  | .call nnn => encodeA 0x2 nnn
  | .seImm x kk => encodeXK 0x3 x kk
  | .sneImm x kk => encodeXK 0x4 x kk
  | .seReg x y => encodeXYN 0x5 x y 0x0
  | .ldImm x kk => encodeXK 0x6 x kk
  | .addImm x kk => encodeXK 0x7 x kk
  | .ldReg x y => encodeXYN 0x8 x y 0x0
  | .orReg x y => encodeXYN 0x8 x y 0x1
  | .andReg x y => encodeXYN 0x8 x y 0x2
  | .xorReg x y => encodeXYN 0x8 x y 0x3
  | .addReg x y => encodeXYN 0x8 x y 0x4
  | .subReg x y => encodeXYN 0x8 x y 0x5
  | .shr x y => encodeXYN 0x8 x y 0x6
  | .subnReg x y => encodeXYN 0x8 x y 0x7
  | .shl x y => encodeXYN 0x8 x y 0xE
  | .sneReg x y => encodeXYN 0x9 x y 0x0
  | .ldI nnn => encodeA 0xA nnn
  | .jpV0 nnn => encodeA 0xB nnn
  | .rnd x kk => encodeXK 0xC x kk
  | .drw x y n => encodeXYN 0xD x y n
  | .skp x => encodeXK 0xE x 0x9E
  | .sknp x => encodeXK 0xE x 0xA1
  | .ldVxDt x => encodeXK 0xF x 0x07
  | .ldVxKey x => encodeXK 0xF x 0x0A
  | .ldDtVx x => encodeXK 0xF x 0x15
  | .ldStVx x => encodeXK 0xF x 0x18
  | .addI x => encodeXK 0xF x 0x1E
  | .ldFont x => encodeXK 0xF x 0x29
  | .ldBcd x => encodeXK 0xF x 0x33
  | .storeRegs x => encodeXK 0xF x 0x55
  | .loadRegs x => encodeXK 0xF x 0x65

/-- The word of a table row whose low `nbits` bits are `w`, the bits above them 0. An instruction is one word, so
bit 0 of the table's numbering is bit 0 of that word. -/
def tableWord (nbits w : Nat) : Word := BitVec.ofNat 16 (w % 2 ^ nbits)

/-- The instruction the decoder reads from the two bytes of a table row's word, as the hardware stores them. -/
def decodeTableWord (nbits w : Nat) : Option Instr :=
  match decodeBytes [hiByte (tableWord nbits w), loByte (tableWord nbits w)] with
  | .ok (i, _) => some i
  | .error _ => none

end Sys2Proof
end

