-- ==== Sys2Proof/Config.lean ====
section
/-! DEFINITION. The implementation parameters of 00_scope.md R4 and the free values: what the spec leaves without a
value. A free value is an opaque constant, so no proof can see what it is. -/

namespace Sys2Proof

/-- `MEM_SIZE`: bytes of memory, addresses 0x000 to 0xFFF (R4, R60). -/
abbrev Config.memSize : Nat := 4096

/-- What a byte of memory that nothing has written reads as: memory is zero-filled at reset (R36, log 17). -/
abbrev Config.unwrittenByte : Byte := 0

/-- `PROG_BASE`: the reset value of `PC` and the address a ROM image is loaded from (R4, R260). -/
abbrev Config.progBase : Word := 0x200

/-- `STACK_ENTRIES`: entries of the call stack (R4, R28). -/
abbrev Config.stackEntries : Nat := 16

/-- `FB_W`: columns of the framebuffer (R4, R31). DESIGN CHOICE of the spec, decision D6 (log 7). -/
abbrev Config.fbWidth : Nat := 64

/-- `FB_H`: rows of the framebuffer (R4, R31). DESIGN CHOICE of the spec, decision D6 (log 7). -/
abbrev Config.fbHeight : Nat := 32

/-- `GLYPH_HEIGHT`: the multiplier of Fx29 (R4, R173). DESIGN CHOICE of the spec, decision D7 (log 8). -/
abbrev Config.glyphHeight : Nat := 5

/-- `rnd`: the byte the random source presents to a Cxkk. It may be any byte at each draw, under no law (R48);
the argument is the number of the draw, so nothing relates two draws (log 2). -/
opaque Config.rnd : Nat → Byte

/-- What the field `opcode` of the fault record holds after a fault in the fetch itself: no word was read and the
field is not meaningful (R33, R222), so its value is free (log 3). -/
opaque Config.fetchFaultOpcode : Nat → Word

end Sys2Proof
end

