-- ==== Sys2Proof/Machine/State.lean ====
section
/-! DEFINITION. The state of the machine: the aggregate of 10_state.md R20 and two fields of the model's own, and its
value after reset (R36). -/

namespace Sys2Proof.Machine

/-- The four fault kinds and `none`, the codes 1 to 4 and 0 of `fault.kind` (R33, R220). -/
inductive FaultKind where
  /-- Code 0: no fault recorded. -/
  | none
  /-- Code 1: the fetched word matches no row of the opcode map (R221). -/
  | unknownInstruction
  /-- Code 2: an address of a fetch, load, store or sprite read is above 0xFFF (R222). -/
  | addressOutOfRange
  /-- Code 3: a 2nnn with `SP = 15` (R223). -/
  | stackOverflow
  /-- Code 4: a 00EE with `SP = 0` (R224). -/
  | stackUnderflow
  deriving DecidableEq, Repr

/-- The fault record (R33). -/
structure FaultRecord where
  /-- Which fault, `none` where there has been none since reset. -/
  kind : FaultKind
  /-- `PC` of the step that faulted. -/
  pc : Word
  /-- The instruction word of that step; meaningful only if `opvalid`. -/
  opcode : Word
  /-- False if the fault arose in the fetch itself. -/
  opvalid : Bool
  /-- For AddressOutOfRange the lowest offending address, otherwise 0. -/
  addr : BitVec 17
  deriving DecidableEq, Repr

/-- The fault record after reset: kind 0, the other fields 0 (R36). -/
def FaultRecord.clear : FaultRecord :=
  { kind := .none, pc := 0, opcode := 0, opvalid := false, addr := 0 }

/-- The framebuffer: `fb[x][y]` is the pixel in column x and row y (R31). -/
abbrev Framebuffer := Vector (Vector Bool Config.fbHeight) Config.fbWidth

/-- Memory: (address, byte) pairs in one canonical form (`Memory.wf`); an address not listed reads as
`Config.unwrittenByte` (R36, R60). -/
abbrev Memory := List Host.Cell

/-- A transaction the environment issues (R40). `RESET` and the `LOAD`s that may follow it before the first `STEP` are
one transaction with the image they write, as R42 asks (log 15). -/
inductive Transaction where
  /-- `RESET`, then one `LOAD(addr, byte)` for each pair of the image, in order (R41, R42). -/
  | reset (image : List (Addr12 × Byte))
  /-- `STEP` (R43). -/
  | step
  /-- `TICK` (R44). -/
  | tick
  /-- `KEY(k, down)` (R45). -/
  | key (k : Key) (down : Bool)
  deriving DecidableEq, Repr

structure State where
  /-- `V[0..15]`, the general registers; `V[15]` is `VF` (R21, R22). -/
  v : Vector Byte 16
  /-- `I`, the address register (R24). -/
  i : Word
  /-- `PC`, the program counter (R25). -/
  pc : Word
  /-- `SP`, the index of the entry pushed last; 0 is the empty stack (R27). -/
  sp : BitVec 8
  /-- `stack[0..15]`, the call stack (R28). -/
  stack : Vector Word Config.stackEntries
  /-- `DT`, the delay timer (R30). -/
  dt : Byte
  /-- `ST`, the sound timer (R30). -/
  st : Byte
  /-- `fb`, the framebuffer (R31). -/
  fb : Framebuffer
  /-- `key[0..15]`, the input latch; true is down (R32). -/
  key : Vector Bool 16
  /-- `mem`, the 4096 bytes of memory (R60). -/
  mem : Memory
  /-- `fault`, the fault record (R33). -/
  fault : FaultRecord
  /-- The model's own: how many free values the steps have taken (log 2). -/
  draws : Nat
  /-- The model's own: the transactions the environment has scheduled, the first one next; where it is empty the next
  one is a `STEP` (log 1). -/
  agenda : List Transaction
  deriving DecidableEq, Repr

/-- The state after `RESET` with nothing loaded (R36). The zeros other than memory's, `SP`'s and the record's are the
spec's decision D3 (DESIGN CHOICE, log 4); `draws` and `agenda` are the model's own (log 1, log 2). -/
def State.reset : State where
  v := Vector.replicate 16 0
  i := 0
  pc := Config.progBase
  sp := 0
  stack := Vector.replicate Config.stackEntries 0
  dt := 0
  st := 0
  fb := Vector.replicate Config.fbWidth (Vector.replicate Config.fbHeight false)
  key := Vector.replicate 16 false
  mem := []
  fault := FaultRecord.clear
  draws := 0
  agenda := []

/-- Reasons the model itself stops. The spec's four faults are not among them: taking one is a next state with the
fault record written (R225). -/
inductive Fault where
  /-- A 00EE or a 2nnn whose stack index is above 15: `SP` holds no legal value (R27) and the call stack has no such
  entry (R28). Raised by `State.pop` and `State.push`. SAFE: the machine stops where the spec gives no effect, and no run
  from reset reaches such a state (log 18). -/
  | noStackEntry (sp : BitVec 8)
  deriving DecidableEq, Repr

/-- Reasons the model has no meaning for an instruction. -/
inductive Refusal where
  /-- An instruction without a meaning yet, by its mnemonic. Raised by an arm of `exec` only; no arm raises it, since every
  instruction has its meaning. SAFE. -/
  | notModelled (mnemonic : String)
  deriving DecidableEq, Repr

end Sys2Proof.Machine
end

