-- ==== Sys2Proof/Machine/Ops.lean ====
section
/-! DEFINITION. The named operations over memory, registers, the call stack, the framebuffer, the timers and the input
latch, and taking a fault as one shared operation. Meanings reach the state through these alone. -/

namespace Sys2Proof.Machine

/-- What a meaning and a step answer. -/
abbrev Answer := Host.Outcome State Fault Refusal

/-! ### Memory (20_memory.md) -/

/-- The canonical form: addresses strictly rising, every address inside memory, and no entry equal to what an unlisted
address reads as. -/
abbrev Memory.wf (m : Memory) : Prop :=
  m.Pairwise (fun c d => c.1 < d.1) ∧ ∀ c ∈ m, c.1 < Config.memSize ∧ c.2 ≠ Config.unwrittenByte

/-- The byte at an address (R60). -/
def Memory.read : Memory → Nat → Byte
  | [], _ => Config.unwrittenByte
  | c :: m, a => if a = c.1 then c.2 else Memory.read m a

/-- Memory with an address's entry taken out. -/
def Memory.drop (m : Memory) (a : Nat) : Memory :=
  m.filter fun c => c.1 != a

/-- Memory with an entry put before the first greater address. -/
def Memory.place : Memory → Nat → Byte → Memory
  | [], a, b => [(a, b)]
  | c :: m, a, b => if a < c.1 then (a, b) :: c :: m else c :: Memory.place m a b

/-- Memory with one byte written; writing what an unlisted address reads as leaves no entry. -/
def Memory.write (m : Memory) (a : Nat) (b : Byte) : Memory :=
  if b = Config.unwrittenByte then Memory.drop m a else Memory.place (Memory.drop m a) a b

/-- Memory with bytes written at consecutive ascending addresses (R63). -/
def Memory.writeAll : Memory → Nat → List Byte → Memory
  | m, _, [] => m
  | m, a, b :: bs => Memory.writeAll (Memory.write m a b) (a + 1) bs

/-- The bytes at `n` consecutive ascending addresses (R62). -/
def Memory.readAll (m : Memory) (a n : Nat) : List Byte :=
  (List.range n).map fun k => Memory.read m (a + k)

/-- The lowest address above 0xFFF of an access that begins at `a`: `max(a, 0x1000)` (R62, R63). -/
def lowestOutside (a : Nat) : Nat := max a Config.memSize

/-- An access of `n` bytes at `a` lies inside memory. Addresses are natural numbers and never wrap (R61); an access of no
byte is always inside (R62). -/
def InRange (a n : Nat) : Bool := n == 0 || decide (a + n ≤ Config.memSize)

/-- `MemRead(addr, n)`: the bytes, or the lowest address that is out of range (R62). -/
def State.memRead (s : State) (a n : Nat) : Except Nat (List Byte) :=
  if InRange a n then .ok (Memory.readAll s.mem a n) else .error (lowestOutside a)

/-- `MemWrite(addr, n, v)`: the state with the bytes written, or the lowest address that is out of range, and then
nothing is written (R63). -/
def State.memWrite (s : State) (a : Nat) (bs : List Byte) : Except Nat State :=
  if InRange a bs.length then .ok { s with mem := Memory.writeAll s.mem a bs } else .error (lowestOutside a)

/-- The byte of memory at an address. -/
def State.byteAt (s : State) (a : Nat) : Byte := Memory.read s.mem a

/-! ### Registers (10_state.md R21 to R26) -/

/-- `V[x]`. No register is hard-wired and none aliases another (R21). -/
def State.readV (s : State) (x : Reg) : Byte := s.v[x.toNat]'x.isLt

/-- `V[x] <- b`. -/
def State.setV (s : State) (x : Reg) (b : Byte) : State :=
  { s with v := s.v.set x.toNat b x.isLt }

/-- The registers with bytes loaded into consecutive registers from number `k` upward (R176). -/
def loadFrom : Nat → List Byte → Vector Byte 16 → Vector Byte 16
  | _, [], v => v
  | k, b :: bs, v => loadFrom (k + 1) bs (v.setIfInBounds k b)

/-- `V[i] <- m[i]` for every byte of the list, from register 0 upward (R176). -/
def State.loadV (s : State) (bs : List Byte) : State :=
  { s with v := loadFrom 0 bs s.v }

/-- `I <- w`. -/
def State.setI (s : State) (w : Word) : State := { s with i := w }

/-- `PC <- w`. A target is never checked when it is written (R120). -/
def State.goto (s : State) (w : Word) : State := { s with pc := w }

/-- `PC <- PC + 2`: past this instruction (R26). -/
def State.advance (s : State) : State := State.goto s (s.pc + 2)

/-- `PC + 4` if the condition holds, else `PC + 2` (R26). -/
def State.skipIf (s : State) (c : Bool) : State := State.goto s (if c then s.pc + 4 else s.pc + 2)

/-! ### The call stack (10_state.md R27 to R29) -/

/-- `stack[SP + 1] <- w`, `SP <- SP + 1` (R123). Past entry 15 there is no entry to write (log 18). -/
def State.push (s : State) (w : Word) : Except Fault State :=
  if h : s.sp.toNat + 1 < Config.stackEntries then
    .ok { s with stack := s.stack.set (s.sp.toNat + 1) w h, sp := s.sp + 1 }
  else .error (.noStackEntry s.sp)

/-- `stack[SP]` and the state with `SP <- SP - 1`; the entry keeps its value (R28, R121). -/
def State.pop (s : State) : Except Fault (Word × State) :=
  if h : s.sp.toNat < Config.stackEntries then
    .ok (s.stack[s.sp.toNat], { s with sp := s.sp - 1 })
  else .error (.noStackEntry s.sp)

/-! ### Timers and input latch (10_state.md R30, R32, R44, R45) -/

/-- A timer after one tick: one less, floored at 0 (R44). -/
def tickTimer (t : Byte) : Byte := if t = 0 then 0 else t - 1

/-- `TICK` (R44). -/
def State.tick (s : State) : State := { s with dt := tickTimer s.dt, st := tickTimer s.st }

/-- `DT <- b`. -/
def State.setDt (s : State) (b : Byte) : State := { s with dt := b }

/-- `ST <- b`. -/
def State.setSt (s : State) (b : Byte) : State := { s with st := b }

/-- `key[k]`: true is down (R32). -/
def State.keyDown (s : State) (k : Key) : Bool := s.key[k.toNat]'k.isLt

/-- `KEY(k, down)` (R45). -/
def State.setKey (s : State) (k : Key) (down : Bool) : State :=
  { s with key := s.key.set k.toNat down k.isLt }

/-- The keys in ascending order. -/
def allKeys : List Key := (List.range 16).map (BitVec.ofNat 4)

/-- The lowest key that is down, if any is (R206). DESIGN CHOICE of the spec, decision D10 (log 11). -/
def State.lowestKey (s : State) : Option Key := allKeys.find? s.keyDown

/-! ### The framebuffer (10_state.md R31, 43_display.md) -/

/-- `fb[x][y]`; every coordinate wraps modulo the grid's width and height (R31). -/
def Framebuffer.get (fb : Framebuffer) (x y : Nat) : Bool :=
  (fb[x % Config.fbWidth]'(Nat.mod_lt _ (by decide)))[y % Config.fbHeight]'(Nat.mod_lt _ (by decide))

/-- `fb[x][y] <- fb[x][y] ^ 1`, the coordinates wrapping (R31, R191). -/
def Framebuffer.flip (fb : Framebuffer) (x y : Nat) : Framebuffer :=
  let px := x % Config.fbWidth
  let py := y % Config.fbHeight
  have hx : px < Config.fbWidth := Nat.mod_lt _ (by decide)
  have hy : py < Config.fbHeight := Nat.mod_lt _ (by decide)
  fb.set px (fb[px].set py (!fb[px][py]) hy) hx

/-- Every pixel 0 (R190). -/
def Framebuffer.blank : Framebuffer :=
  Vector.replicate Config.fbWidth (Vector.replicate Config.fbHeight false)

/-- The columns of a sprite row whose bit is 1, in ascending order: column c is bit 7 - c (R191). -/
def setColumns (b : Byte) : List Nat :=
  (List.range 8).filter fun c => b.getLsbD (7 - c)

/-- The pixels a sprite's set bits fall on, in the order of the drawing loop: rows from number `r` downward on the
screen, columns left to right, before wrapping (R191). -/
def spritePixels (x0 y0 : Nat) : Nat → List Byte → List (Nat × Nat)
  | _, [] => []
  | r, b :: bs => (setColumns b).map (fun c => (x0 + c, y0 + r)) ++ spritePixels x0 y0 (r + 1) bs

/-- The drawing loop over the pixels of the set bits: each is XORed with 1, and finding one already 1 is a collision
(R191). The answer is the framebuffer and the collision flag. -/
def blit : List (Nat × Nat) → Framebuffer × Bool → Framebuffer × Bool
  | [], r => r
  | p :: ps, (fb, hit) => blit ps (Framebuffer.flip fb p.1 p.2, hit || Framebuffer.get fb p.1 p.2)

/-! ### Free values -/

/-- The byte the random source presents to this step, and the state with the draw counted (R48, log 2). -/
def State.drawRnd (s : State) : Byte × State := (Config.rnd s.draws, { s with draws := s.draws + 1 })

/-! ### Taking a fault (60_exceptions.md R220 to R226) -/

/-- A fault of the decode or the execute phase of a step: only the record changes, so `PC` still holds the address of the
faulting instruction (R221 to R225). `op` is the instruction word, `a` the lowest offending address or 0. -/
def State.raise (s : State) (kind : FaultKind) (op : Word) (a : Nat) : State :=
  { s with fault := { kind := kind, pc := s.pc, opcode := op, opvalid := true, addr := BitVec.ofNat 17 a } }

/-- AddressOutOfRange of the fetch itself: no word was read, so `opvalid` is 0 and `opcode`, not meaningful, is a free
value (R222, log 3). -/
def State.raiseFetch (s : State) (a : Nat) : State :=
  { s with
    fault := { kind := .addressOutOfRange, pc := s.pc, opcode := Config.fetchFaultOpcode s.draws, opvalid := false,
               addr := BitVec.ofNat 17 a }
    draws := s.draws + 1 }

/-- AddressOutOfRange of an instruction that accesses memory (R222). -/
def State.raiseAddress (s : State) (i : Instr) (a : Nat) : State :=
  State.raise s .addressOutOfRange (encode i) a

/-- A fault is recorded: a `STEP` does nothing (R226). -/
def State.faulted (s : State) : Bool := s.fault.kind != .none

/-- There is no return from a fault but `RESET` (R229): the state of R36 with the host's image loaded over its memory
(R41, R42). The environment's schedule and the count of free values run on (log 1, log 2). -/
def State.relaunch (s : State) (image : List (Addr12 × Byte)) : State :=
  { State.reset with
    mem := image.foldl (fun m p => Memory.write m p.1.toNat p.2) State.reset.mem
    draws := s.draws
    agenda := s.agenda }

/-! ### Fetching (20_memory.md R65, R66) -/

/-- The word at `PC`: two consecutive bytes, big-endian, at any address odd or even (R65, R66). -/
def State.fetch (s : State) : Except Nat Word :=
  match State.memRead s s.pc.toNat 2 with
  | .ok _ => .ok (wordOfBytes (State.byteAt s s.pc.toNat) (State.byteAt s (s.pc.toNat + 1)))
  | .error a => .error a

/-- `PC` where a word can be fetched at it, else the address a program starts at (R260). -/
def State.fetchablePc (s : State) : Word :=
  if s.pc.toNat + 2 ≤ Config.memSize then s.pc else Config.progBase

/-- The state with a word stored where its next `STEP` fetches, and nothing in the way of that step: no scheduled
transaction before it, no fault recorded, `PC` inside memory (log 15). -/
def State.placeWord (s : State) (w : Word) : State :=
  { s with
    pc := State.fetchablePc s
    mem := Memory.writeAll s.mem (State.fetchablePc s).toNat [hiByte w, loByte w]
    fault := FaultRecord.clear
    agenda := [] }

end Sys2Proof.Machine
end

