-- ==== Sys2Proof/Machine/Flags.lean ====
section
/-! DEFINITION. Every flag computation of 10_state.md R22, each from the operands' values before the step, and the
arithmetic beside it, computed exactly and narrowed once (41_load_alu.md R153). -/

namespace Sys2Proof.Machine

/-- A flag as the byte written to `VF`: 0x00 or 0x01, all 8 bits (R22). -/
def flagByte (c : Bool) : Byte := if c then 1 else 0

/-- The unsigned sum before wrapping, 0 to 510 (R147). -/
def rawSum (a b : Byte) : Nat := a.toNat + b.toNat

/-- The sum modulo 256 (R142, R147). -/
def addWrap (a b : Byte) : Byte := BitVec.ofNat 8 (rawSum a b % 256)

/-- Carry of 8xy4: the raw sum exceeds 255 (R147). -/
def carryOut (a b : Byte) : Bool := decide (rawSum a b > 255)

/-- The difference modulo 256, with the non-negative remainder (R148, R150, R153). -/
def subWrap (a b : Byte) : Byte := BitVec.ofNat 8 ((a.toNat + 256 - b.toNat) % 256)

/-- Flag of 8xy5 and 8xy7: the minuend is strictly greater than the subtrahend (R148, R150). -/
def strictlyGreater (a b : Byte) : Bool := decide (a.toNat > b.toNat)

/-- `a >> 1`, a logical shift (R149). -/
def shiftRight (a : Byte) : Byte := BitVec.ofNat 8 (a.toNat / 2)

/-- Flag of 8xy6: bit 0 before the shift (R149). -/
def outRight (a : Byte) : Bool := a.getLsbD 0

/-- `(a << 1) mod 256` (R151). -/
def shiftLeft (a : Byte) : Byte := BitVec.ofNat 8 (a.toNat * 2 % 256)

/-- Flag of 8xyE: bit 7 before the shift (R151). -/
def outLeft (a : Byte) : Bool := a.getLsbD 7

/-- `VF` written with a flag (R22). -/
def State.setFlag (s : State) (c : Bool) : State := State.setV s VF (flagByte c)

/-- The result and then the flag: the order of the 8xy4 row; with `x = F` the flag wins (R23, R147; log 5). -/
def State.resultThenFlag (s : State) (x : Reg) (r : Byte) (c : Bool) : State :=
  State.setFlag (State.setV s x r) c

/-- The flag and then the result: the order of the 8xy5, 8xy6, 8xy7 and 8xyE rows; with `x = F` the result wins
(R23, R148 to R151; log 5). -/
def State.flagThenResult (s : State) (x : Reg) (r : Byte) (c : Bool) : State :=
  State.setV (State.setFlag s c) x r

end Sys2Proof.Machine
end

