-- ==== Sys2Proof/Machine/Operands.lean ====
section
/-! DEFINITION. The operand forms (30_encoding.md R95): fields taken as the unsigned numbers their bits spell, the
addressing mode through `I` (42_index_memory.md R170), the key selector (44_timer_key.md R207) and the decimal digits
of Fx33 (R174). -/

namespace Sys2Proof.Machine

/-- `zext_16(nnn)` (R95). -/
def addrWord (nnn : Addr12) : Word := nnn.zeroExtend 16

/-- `zext_16(V[x])` (R95). -/
def State.wideV (s : State) (x : Reg) : Word := (State.readV s x).zeroExtend 16

/-- The address a load, a store or a sprite read begins at: `I`, as a natural number (R61, R170). -/
def State.dataAddr (s : State) : Nat := s.i.toNat

/-- How many bytes Fx55 and Fx65 move: the field `x` as a number, plus 1 (R95, R175, R176). -/
def moveCount (x : Reg) : Nat := x.toNat + 1

/-- `[V[0], V[1], ..., V[x]]` (R175). -/
def State.regsUpTo (s : State) (x : Reg) : List Byte :=
  (List.range (moveCount x)).map fun k => State.readV s (BitVec.ofNat 4 k)

/-- The key a key-skip tests: the low four bits of `V[x]` (R207). DESIGN CHOICE of the spec, decision D9 (log 10). -/
def State.keyOperand (s : State) (x : Reg) : Key := (State.readV s x).extractLsb' 0 4

/-- The address of a glyph: `V[x] * GLYPH_HEIGHT`, with no mask and no base (R173). DESIGN CHOICE of the spec, decisions
D7 and D23 (log 8). -/
def glyphAddr (b : Byte) : Word := BitVec.ofNat 16 (b.toNat * Config.glyphHeight)

/-- Hundreds, tens and ones of a byte, each a byte 0 to 9 (R174). -/
def bcdDigits (b : Byte) : List Byte :=
  [BitVec.ofNat 8 (b.toNat / 100), BitVec.ofNat 8 (b.toNat / 10 % 10), BitVec.ofNat 8 (b.toNat % 10)]

end Sys2Proof.Machine
end

