-- ==== Sys2Proof/Machine/Display.lean ====
section
/-! DEFINITION. The framebuffer clear and the XOR sprite blitter (43_display.md): 00E0, Dxyn. -/

namespace Sys2Proof.Machine

/-- 00E0 (R190): `VF` is not written. -/
def execCls (s : State) : Answer :=
  .next (State.advance { s with fb := Framebuffer.blank })

/-- Dxyn (R191): the coordinates are the values before the draw, `VF` receives the collision flag last; out of range,
no pixel and no register changes. -/
def execDrw (x y : Reg) (n : BitVec 4) (s : State) : Answer :=
  match State.memRead s (State.dataAddr s) n.toNat with
  | .ok rows =>
    let r := blit (spritePixels (State.readV s x).toNat (State.readV s y).toNat 0 rows) (s.fb, false)
    .next (State.advance (State.setFlag { s with fb := r.1 } r.2))
  | .error a => .next (State.raiseAddress s (.drw x y n) a)

end Sys2Proof.Machine
end

