-- ==== Sys2Proof/Machine/Flow.lean ====
section
/-! DEFINITION. Control transfer (40_flow.md): 00EE, 1nnn, 2nnn, 3xkk, 4xkk, 5xy0, 9xy0, Bnnn. No instruction here
writes a general register, `I`, memory, the framebuffer or a timer (R120). -/

namespace Sys2Proof.Machine

/-- 00EE (R121): StackUnderflow when `SP = 0`, else to the popped call's address plus 2. -/
def execRet (s : State) : Answer :=
  if s.sp = 0 then .next (State.raise s .stackUnderflow (encode .ret) 0)
  else
    match State.pop s with
    | .ok (w, t) => .next (State.goto t (w + 2))
    | .error f => .fault f

/-- 1nnn (R122). -/
def execJp (nnn : Addr12) (s : State) : Answer :=
  .next (State.goto s (addrWord nnn))

/-- 2nnn (R123): StackOverflow when `SP = 15` (R29, decision D4, log 6), else the address of this instruction is
pushed. -/
def execCall (nnn : Addr12) (s : State) : Answer :=
  if s.sp = 15 then .next (State.raise s .stackOverflow (encode (.call nnn)) 0)
  else
    match State.push s s.pc with
    | .ok t => .next (State.goto t (addrWord nnn))
    | .error f => .fault f

/-- 3xkk (R124). -/
def execSeImm (x : Reg) (kk : Byte) (s : State) : Answer :=
  .next (State.skipIf s (State.readV s x == kk))

/-- 4xkk (R125). -/
def execSneImm (x : Reg) (kk : Byte) (s : State) : Answer :=
  .next (State.skipIf s (State.readV s x != kk))

/-- 5xy0 (R126). -/
def execSeReg (x y : Reg) (s : State) : Answer :=
  .next (State.skipIf s (State.readV s x == State.readV s y))

/-- 9xy0 (R127). -/
def execSneReg (x y : Reg) (s : State) : Answer :=
  .next (State.skipIf s (State.readV s x != State.readV s y))

/-- Bnnn (R128): a 16-bit sum with `V[0]`, always register 0. -/
def execJpV0 (nnn : Addr12) (s : State) : Answer :=
  .next (State.goto s (addrWord nnn + State.wideV s 0))

end Sys2Proof.Machine
end

