-- ==== Sys2Proof/Machine/IndexMemory.lean ====
section
/-! DEFINITION. The address register and memory transfer (42_index_memory.md): Annn, Fx1E, Fx29, Fx33, Fx55, Fx65. None
writes a flag, and a load or store never changes `I` (R170). -/

namespace Sys2Proof.Machine

/-- `I <- w`, then past the instruction. -/
def State.writeIndex (s : State) (w : Word) : Answer :=
  .next (State.advance (State.setI s w))

/-- The store of Fx33 and Fx55: the bytes at `I` upward and past the instruction, or AddressOutOfRange with nothing
written (R63, R222). -/
def State.storeAtIndex (s : State) (ins : Instr) (bs : List Byte) : Answer :=
  match State.memWrite s (State.dataAddr s) bs with
  | .ok t => .next (State.advance t)
  | .error a => .next (State.raiseAddress s ins a)

/-- Annn (R171). -/
def execLdI (nnn : Addr12) (s : State) : Answer :=
  State.writeIndex s (addrWord nnn)

/-- Fx1E (R172): a sum modulo 65536, no flag. -/
def execAddI (x : Reg) (s : State) : Answer :=
  State.writeIndex s (s.i + State.wideV s x)

/-- Fx29 (R173): reads no memory. -/
def execLdFont (x : Reg) (s : State) : Answer :=
  State.writeIndex s (glyphAddr (State.readV s x))

/-- Fx33 (R174). -/
def execLdBcd (x : Reg) (s : State) : Answer :=
  State.storeAtIndex s (.ldBcd x) (bcdDigits (State.readV s x))

/-- Fx55 (R175). -/
def execStoreRegs (x : Reg) (s : State) : Answer :=
  State.storeAtIndex s (.storeRegs x) (State.regsUpTo s x)

/-- Fx65 (R176): no register changes where the read is out of range. -/
def execLoadRegs (x : Reg) (s : State) : Answer :=
  match State.memRead s (State.dataAddr s) (moveCount x) with
  | .ok bs => .next (State.advance (State.loadV s bs))
  | .error a => .next (State.raiseAddress s (.loadRegs x) a)

end Sys2Proof.Machine
end

