-- ==== Sys2Proof/Machine/LoadAlu.lean ====
section
/-! DEFINITION. Register load, arithmetic and logic with the flag, and the random byte (41_load_alu.md): 6xkk, 7xkk,
8xy0 to 8xy7, 8xyE, Cxkk. Every one advances `PC` by 2 and none can fault (R140); operands are read before any write
(00_scope.md R7). -/

namespace Sys2Proof.Machine

/-- `V[x] <- r`, then past the instruction: the shape of the instructions without a flag. -/
def State.writeBack (s : State) (x : Reg) (r : Byte) : Answer :=
  .next (State.advance (State.setV s x r))

/-- 6xkk (R141). -/
def execLdImm (x : Reg) (kk : Byte) (s : State) : Answer :=
  State.writeBack s x kk

/-- 7xkk (R142): no flag. -/
def execAddImm (x : Reg) (kk : Byte) (s : State) : Answer :=
  State.writeBack s x (addWrap (State.readV s x) kk)

/-- 8xy0 (R143). -/
def execLdReg (x y : Reg) (s : State) : Answer :=
  State.writeBack s x (State.readV s y)

/-- 8xy1 (R144): no flag. -/
def execOrReg (x y : Reg) (s : State) : Answer :=
  State.writeBack s x (State.readV s x ||| State.readV s y)

/-- 8xy2 (R145): no flag. -/
def execAndReg (x y : Reg) (s : State) : Answer :=
  State.writeBack s x (State.readV s x &&& State.readV s y)

/-- 8xy3 (R146): no flag. -/
def execXorReg (x y : Reg) (s : State) : Answer :=
  State.writeBack s x (State.readV s x ^^^ State.readV s y)

/-- 8xy4 (R147): the sum first, the carry second. -/
def execAddReg (x y : Reg) (s : State) : Answer :=
  let a := State.readV s x
  let b := State.readV s y
  .next (State.advance (State.resultThenFlag s x (addWrap a b) (carryOut a b)))

/-- 8xy5 (R148): the flag first, the difference second. -/
def execSubReg (x y : Reg) (s : State) : Answer :=
  let a := State.readV s x
  let b := State.readV s y
  .next (State.advance (State.flagThenResult s x (subWrap a b) (strictlyGreater a b)))

/-- 8xy6 (R149): the bit shifted out first, the result second; `y` is ignored (R99). -/
def execShr (x _y : Reg) (s : State) : Answer :=
  let a := State.readV s x
  .next (State.advance (State.flagThenResult s x (shiftRight a) (outRight a)))

/-- 8xy7 (R150): the flag first, the reverse difference second. -/
def execSubnReg (x y : Reg) (s : State) : Answer :=
  let a := State.readV s x
  let b := State.readV s y
  .next (State.advance (State.flagThenResult s x (subWrap b a) (strictlyGreater b a)))

/-- 8xyE (R151): the bit shifted out first, the result second; `y` is ignored (R99). -/
def execShl (x _y : Reg) (s : State) : Answer :=
  let a := State.readV s x
  .next (State.advance (State.flagThenResult s x (shiftLeft a) (outLeft a)))

/-- Cxkk (R152): a fresh byte of the random source, masked. -/
def execRnd (x : Reg) (kk : Byte) (s : State) : Answer :=
  let r := State.drawRnd s
  State.writeBack r.2 x (r.1 &&& kk)

end Sys2Proof.Machine
end

