-- ==== Sys2Proof/Machine/TimerKey.lean ====
section
/-! DEFINITION. Keypad and timer instructions (44_timer_key.md): Ex9E, ExA1, Fx07, Fx0A, Fx15, Fx18. None can fault
(R200). -/

namespace Sys2Proof.Machine

/-- Ex9E (R201). -/
def execSkp (x : Reg) (s : State) : Answer :=
  .next (State.skipIf s (State.keyDown s (State.keyOperand s x)))

/-- ExA1 (R202). -/
def execSknp (x : Reg) (s : State) : Answer :=
  .next (State.skipIf s (!State.keyDown s (State.keyOperand s x)))

/-- Fx07 (R203). -/
def execLdVxDt (x : Reg) (s : State) : Answer :=
  .next (State.advance (State.setV s x s.dt))

/-- Fx0A (R206): one step is one poll. With no key down nothing changes at all; else the lowest key down completes the
instruction. -/
def execLdVxKey (x : Reg) (s : State) : Answer :=
  match State.lowestKey s with
  | some k => .next (State.advance (State.setV s x (k.zeroExtend 8)))
  | none => .next s

/-- Fx15 (R204). -/
def execLdDtVx (x : Reg) (s : State) : Answer :=
  .next (State.advance (State.setDt s (State.readV s x)))

/-- Fx18 (R205). -/
def execLdStVx (x : Reg) (s : State) : Answer :=
  .next (State.advance (State.setSt s (State.readV s x)))

end Sys2Proof.Machine
end

