-- ==== Sys2Proof/Machine/Transactions.lean ====
section
/-! DEFINITION. The transactions of 10_state.md R40 to R47: the engine's `STEP` as fetch, decode, execute, and the
environment's `RESET` with its loads, `TICK` and `KEY`. -/

namespace Sys2Proof.Machine

/-- Decode and execute a fetched word: UnknownInstruction where it matches no row of the opcode map (R43, R221). -/
def runWord (w : Word) (s : State) : Answer :=
  match decode w with
  | .ok i => exec i s
  | .error _ => .next (State.raise s .unknownInstruction w 0)

/-- `STEP` (R43): nothing once a fault is recorded (R226), else one fetch, decode and execute, whose faults are found in
that order (R227). -/
def engineStep (s : State) : Answer :=
  if State.faulted s then .next s
  else
    match State.fetch s with
    | .ok w => runWord w s
    | .error a => .next (State.raiseFetch s a)

/-- One transaction (R40). `TICK` and `KEY` are accepted in every condition of the block (R44, R45; log 14). -/
def transact (t : Transaction) (s : State) : Answer :=
  match t with
  | .reset image => .next (State.relaunch s image)
  | .step => engineStep s
  | .tick => .next (State.tick s)
  | .key k down => .next (State.setKey s k down)

/-- The next transaction: the first one scheduled, which leaves the schedule, or a `STEP` where none is (log 1). -/
def nextTransaction (s : State) : Answer :=
  match s.agenda with
  | [] => engineStep s
  | t :: rest => transact t { s with agenda := rest }

/-- The orders in which two transactions requested at the same moment may be performed: a `STEP` before a `TICK`, any
other pair in either order (R47; decision D15, log 14). -/
def coincidentOrders : Transaction → Transaction → List (List Transaction)
  | .step, .tick => [[.step, .tick]]
  | .tick, .step => [[.step, .tick]]
  | t, u => [[t, u], [u, t]]

end Sys2Proof.Machine
end

