-- ==== Sys2Proof/Machine/Step.lean ====
section
/-! DEFINITION. The machine's step, and a table row's word put where the next step fetches. -/

namespace Sys2Proof.Machine

/-- One step of the machine: its next transaction. With nothing scheduled that is the `STEP` of 10_state.md R43. -/
def step (s : State) : Host.Outcome State Fault Refusal := nextTransaction s

/-- The state with a table row's word stored where `step` fetches its next instruction. -/
def State.withFetchWord (s : State) (nbits w : Nat) : State := State.placeWord s (tableWord nbits w)

end Sys2Proof.Machine
end

