-- ==== Sys2Proof/Machine/Outputs.lean ====
section
/-! DEFINITION. What the environment can read between transactions (10_state.md R34, R46): functions of the state
without side effect. The fault record is the fourth output, the field `State.fault`. -/

namespace Sys2Proof.Machine

/-- The numeric code of a fault kind, 3 bits (R33, R220). -/
def FaultKind.code : FaultKind → BitVec 3
  | .none => 0
  | .unknownInstruction => 1
  | .addressOutOfRange => 2
  | .stackOverflow => 3
  | .stackUnderflow => 4

/-- The framebuffer read port: the pixel in column `px` and row `py`, each inside the grid (R31, R46). -/
def State.pixel (s : State) (px py : Nat) : Bool := Framebuffer.get s.fb px py

/-- `sound_active = (ST != 0)` (R46). -/
def State.soundActive (s : State) : Bool := s.st != 0

/-- The word is an Fx0A. -/
def isKeyWait (w : Word) : Bool :=
  match decode w with
  | .ok (.ldVxKey _) => true
  | _ => false

/-- `awaiting_input`: no fault is recorded, the word at `PC` is in range and an Fx0A, and no key is down (R34). -/
def State.awaitingInput (s : State) : Bool :=
  match State.fetch s with
  | .ok w => !State.faulted s && isKeyWait w && (State.lowestKey s).isNone
  | .error _ => false

end Sys2Proof.Machine
end

