-- ==== Sys2Proof/Safety.lean ====
section
/-! DEFINITION. The terms claims are stated in: the machine's invariant, what a step may change (its frame), the tables
of 10_state.md R20 and R26, 20_memory.md R67 and 60_exceptions.md R227 as functions of the instruction, the sprite bit
that falls on a pixel (43_display.md R191), and runs with an end chosen by the user (00_scope.md R10). -/

namespace Sys2Proof.Machine

/-! ### The invariant -/

/-- What a fault record may hold (R33, R221 to R224): nothing where there was no fault, else what the fault's own rule
records. -/
def LegalRecord (f : FaultRecord) : Prop :=
  (f.kind = .none → f = FaultRecord.clear) ∧
  (f.kind = .unknownInstruction → f.opvalid = true ∧ f.addr = 0 ∧ LegalWord f.opcode = false) ∧
  (f.kind = .stackOverflow →
    f.opvalid = true ∧ f.addr = 0 ∧ (Instr.call 0).row.matchesWord f.opcode = true) ∧
  (f.kind = .stackUnderflow → f.opvalid = true ∧ f.addr = 0 ∧ f.opcode = 0x00EE) ∧
  (f.kind = .addressOutOfRange → 0x1000 ≤ f.addr.toNat) ∧
  (f.kind = .addressOutOfRange → f.opvalid = true → LegalWord f.opcode = true) ∧
  (f.kind = .addressOutOfRange → f.opvalid = false → f.addr.toNat = max f.pc.toNat 0x1000) ∧
  (f.opvalid = true → f.pc.toNat ≤ 0xFFE)

/-- The invariant every step keeps: memory in its canonical form, `SP` a legal index (R27), a legal fault record. -/
def Inv (s : State) : Prop :=
  Memory.wf s.mem ∧ s.sp.toNat ≤ 15 ∧ LegalRecord s.fault

/-! ### Frames -/

/-- What a step may change beside `PC`; nothing where a field is left out. -/
structure MayChange where
  regs : List Reg := []
  i : Bool := false
  sp : Bool := false
  /-- Entries of the call stack. -/
  entries : List Nat := []
  dt : Bool := false
  st : Bool := false
  fb : Bool := false
  /-- Addresses of the bytes stored to. -/
  bytes : List Nat := []
  fault : Bool := false
  draws : Bool := false

/-- Everything but `PC` and what may change is unchanged from `s` to `t`. -/
structure Frame (m : MayChange) (s t : State) : Prop where
  regs : ∀ r, r ∉ m.regs → State.readV t r = State.readV s r
  i : m.i = false → t.i = s.i
  sp : m.sp = false → t.sp = s.sp
  entries : ∀ k, k ∉ m.entries → t.stack[k]? = s.stack[k]?
  dt : m.dt = false → t.dt = s.dt
  st : m.st = false → t.st = s.st
  fb : m.fb = false → t.fb = s.fb
  key : t.key = s.key
  bytes : ∀ a, a ∉ m.bytes → State.byteAt t a = State.byteAt s a
  fault : m.fault = false → t.fault = s.fault
  draws : m.draws = false → t.draws = s.draws
  agenda : t.agenda = s.agenda

/-- `V[0..x]` as register numbers (R175, R176). -/
def lowRegs (x : Reg) : List Reg := (List.range (x.toNat + 1)).map (BitVec.ofNat 4)

/-- How many bytes of memory at `I` an instruction reads or writes (R67). -/
def dataBytes : Instr → Nat
  | .ldBcd _ => 3
  | .storeRegs x => x.toNat + 1
  | .loadRegs x => x.toNat + 1
  | .drw _ _ n => n.toNat
  | _ => 0

/-- The one fault an instruction can raise when it executes (R227). -/
def executeFault : Instr → Option FaultKind
  | .ret => some .stackUnderflow
  | .call _ => some .stackOverflow
  | .ldBcd _ | .storeRegs _ | .loadRegs _ | .drw _ _ _ => some .addressOutOfRange
  | _ => none

/-- The registers an instruction names as its destination (R21). -/
def destRegs : Instr → List Reg
  | .ldImm x _ | .addImm x _ | .rnd x _ | .ldVxDt x | .ldVxKey x => [x]
  | .ldReg x _ | .orReg x _ | .andReg x _ | .xorReg x _ => [x]
  | .addReg x _ | .subReg x _ | .shr x _ | .subnReg x _ | .shl x _ => [x]
  | .loadRegs x => lowRegs x
  | _ => []

/-- The six flag-writing instructions (R22). -/
def writesFlag : Instr → Bool
  | .addReg _ _ | .subReg _ _ | .shr _ _ | .subnReg _ _ | .shl _ _ | .drw _ _ _ => true
  | _ => false

/-- What an instruction may write, from the column "written by" of R20 and the tables of R21 and R22. -/
def footprint (i : Instr) (s : State) : MayChange where
  regs := destRegs i ++ if writesFlag i then [VF] else []
  i := match i with | .ldI _ | .addI _ | .ldFont _ => true | _ => false
  sp := match i with | .ret | .call _ => true | _ => false
  entries := match i with | .call _ => [s.sp.toNat + 1] | _ => []
  dt := match i with | .ldDtVx _ => true | _ => false
  st := match i with | .ldStVx _ => true | _ => false
  fb := match i with | .cls | .drw _ _ _ => true | _ => false
  bytes := match i with
    | .ldBcd _ | .storeRegs _ => List.range' s.i.toNat (dataBytes i)
    | _ => []
  fault := (executeFault i).isSome
  draws := match i with | .rnd _ _ => true | _ => false

/-! ### How `PC` advances -/

/-- `PC` after an instruction that does not fault, by the classes of R26. -/
def nextPc (i : Instr) (s : State) : Word :=
  let skip (c : Prop) [Decidable c] : Word := if c then s.pc + 4 else s.pc + 2
  match i with
  | .seImm x kk => skip (State.readV s x = kk)
  | .sneImm x kk => skip (State.readV s x ≠ kk)
  | .seReg x y => skip (State.readV s x = State.readV s y)
  | .sneReg x y => skip (State.readV s x ≠ State.readV s y)
  | .skp x => skip (State.keyDown s (BitVec.ofNat 4 ((State.readV s x).toNat % 16)) = true)
  | .sknp x => skip (State.keyDown s (BitVec.ofNat 4 ((State.readV s x).toNat % 16)) = false)
  | .jp nnn | .call nnn => BitVec.ofNat 16 nnn.toNat
  | .jpV0 nnn => BitVec.ofNat 16 (nnn.toNat + (State.readV s 0).toNat)
  | .ret => s.stack.getD s.sp.toNat 0 + 2
  | .ldVxKey _ => if ∀ k : Key, State.keyDown s k = false then s.pc else s.pc + 2
  | _ => s.pc + 2

/-! ### Sprites -/

/-- The bit of the sprite of a Dxyn that falls on pixel (px, py): the sprite's column is the distance of the pixel from
`V[x]` around the grid's width, its row the distance from `V[y]` around the height; column 0 is bit 7 (R191). -/
def spriteBit (s : State) (x y : Reg) (n : BitVec 4) (px py : Nat) : Bool :=
  let c := (px + Config.fbWidth - (State.readV s x).toNat % Config.fbWidth) % Config.fbWidth
  let r := (py + Config.fbHeight - (State.readV s y).toNat % Config.fbHeight) % Config.fbHeight
  decide (c < 8) && decide (r < n.toNat) && (State.byteAt s (s.i.toNat + r)).getLsbD (7 - c)

/-- The sprite of a Dxyn can be read: it has no row, or its last byte is inside memory (R191). -/
def SpriteReadable (s : State) (n : BitVec 4) : Prop :=
  n = 0 ∨ s.i.toNat + n.toNat ≤ 0x1000

/-! ### Runs -/

/-- The instruction at `PC`, where one can be fetched and decoded. -/
def State.instrAtPc (s : State) : Option Instr :=
  match State.fetch s with
  | .ok w => (decode w).toOption
  | .error _ => none

/-- A run without a fault recorded is the only safe run: a faulted state is never the end of a successful one (R226). -/
def NoFault (s : State) : Prop := s.fault.kind = .none

/-- The end of a run the spec's test programs use: `PC` holds the address of a 1nnn that jumps to itself (R272,
decision D20; log 19). -/
def selfJump (s : State) : Bool :=
  match State.instrAtPc s with
  | some (.jp nnn) => addrWord nnn == s.pc
  | _ => false

/-- At most `k` steps, ending where `halt` holds: the end of a run is the open parameter `halt_predicate` (R10, log 19). -/
def runUntil (halt : State → Bool) : Nat → State → Answer
  | 0, s => .next s
  | k + 1, s =>
    if halt s then .next s
    else
      match step s with
      | .next t => runUntil halt k t
      | .fault f => .fault f
      | .refused r => .refused r

/-- From `s` the run ends, after some number of steps, in a state where `halt` holds and no fault is recorded. -/
def EndsSafely (halt : State → Bool) (s : State) : Prop :=
  ∃ k t, runUntil halt k s = .next t ∧ halt t = true ∧ NoFault t

end Sys2Proof.Machine
end

