-- ==== Sys2Proof/Certificates/Slice0/Obligations.lean ====
section
/-! DEFINITION. The statements for the provers, from the numbered rules of spec/. Statements about one instruction say
that `exec` ANSWERS A NEXT STATE, what that state holds, and by `Frame` that nothing else changes. Where a clause rests on
one of the spec's own decisions D1 to D24, the docstring names the decision and the log entry. -/

open Sys2Proof Sys2Proof.Machine

/-! ## Encoding (30_encoding.md) -/

/-- R90, R92, R96: decoding the word of an instruction gives the instruction back, every operand at every value. -/
def Obligations.DecodeOfEncodeIsTheInstruction : Prop :=
  ∀ i : Instr, decode (encode i) = .ok i

/-- R96, R100: a word the decoder accepts is the word of the instruction it gives, so every word has one meaning. -/
def Obligations.EncodeOfDecodeIsTheWord : Prop :=
  ∀ (w : Word) (i : Instr), decode w = .ok i → encode i = w

/-- R94, R96, R97: the two-level decoder accepts exactly the words that match a row of the opcode map, the row being the
only one the word matches ("No two rows match the same word") and the instruction's own, and refuses every other word
by name. The map's patterns rest on decision D8 for families 0, 5 and 9 (log 9). -/
def Obligations.DecoderAcceptsExactlyTheOpcodeMap : Prop :=
  ∀ w : Word,
    (LegalWord w = true → ∃ i, decode w = .ok i ∧ i.row.matchesWord w = true ∧
      ∀ r ∈ opcodeMap, r.matchesWord w = true → r = i.row) ∧
    (LegalWord w = false → decode w = .error (.unknownInstruction w))

/-- R91: where the fields stand in the word, and how they overlap. -/
def Obligations.FieldsStandAtTheirBits : Prop :=
  ∀ w : Word,
    (famOf w).toNat = w.toNat / 4096 ∧ (xOf w).toNat = w.toNat / 256 % 16 ∧
    (yOf w).toNat = w.toNat / 16 % 16 ∧ (nOf w).toNat = w.toNat % 16 ∧
    (kkOf w).toNat = w.toNat % 256 ∧ (nnnOf w).toNat = w.toNat % 4096 ∧
    kkOf w = yOf w ++ nOf w ∧ nnnOf w = xOf w ++ yOf w ++ nOf w

/-- R96: words written out from the patterns, one or two a family of the table. -/
def Obligations.WordsOfThePatternsDecode : Prop :=
  decode 0b0000000011100000 = .ok .cls ∧
  decode 0b0000000011101110 = .ok .ret ∧
  decode 0b0010101010111100 = .ok (.call 0xABC) ∧
  decode 0b0110001001101001 = .ok (.ldImm 2 0x69) ∧
  decode 0b1000000100100101 = .ok (.subReg 1 2) ∧
  decode 0b1011001100000000 = .ok (.jpV0 0x300) ∧
  decode 0b1101000000010010 = .ok (.drw 0 1 2) ∧
  decode 0b1110000110100001 = .ok (.sknp 1) ∧
  decode 0b1111001101010101 = .ok (.storeRegs 3) ∧
  decode 0b1111001000001010 = .ok (.ldVxKey 2)

/-! ## Control transfer (40_flow.md) -/

/-- 40_flow.md (00EE): StackUnderflow with no other change when `SP = 0`, else to the popped address plus 2, one entry
fewer, the entry keeping its value. That `SP = 0` is the empty stack is the spec's decision D4 and its inference in
10_state.md ("`SP = 0` means the call stack is empty", marked derived; log 6); that the fault is a next state with a
record is decision D12 (log 12). `SP` above 15 is left out (log 18). -/
def Obligations.ReturnGoesTwoPastThePoppedCall : Prop :=
  ∀ s : State,
    (s.sp = 0 → ∃ t, exec .ret s = .next t ∧ t.fault.kind = .stackUnderflow ∧ t = { s with fault := t.fault }) ∧
    (0 < s.sp.toNat → ∀ h : s.sp.toNat < 16, ∃ t, exec .ret s = .next t ∧
      t.pc = s.stack[s.sp.toNat] + 2 ∧ t.sp.toNat = s.sp.toNat - 1 ∧ Frame { sp := true } s t)

/-- 40_flow.md (2nnn): with `SP` below 15 the call's own address is pushed and `PC` takes the target; with `SP = 15`
StackOverflow and no other change. The bound is decision D4 (log 6). -/
def Obligations.CallPushesItsOwnAddress : Prop :=
  ∀ (s : State) (nnn : Addr12),
    (s.sp.toNat < 15 → ∃ t, exec (.call nnn) s = .next t ∧ t.pc.toNat = nnn.toNat ∧
      t.sp.toNat = s.sp.toNat + 1 ∧ t.stack[s.sp.toNat + 1]? = some s.pc ∧
      Frame { sp := true, entries := [s.sp.toNat + 1] } s t) ∧
    (s.sp = 15 → ∃ t, exec (.call nnn) s = .next t ∧ t.fault.kind = .stackOverflow ∧ t = { s with fault := t.fault })

/-- R122: the target is the address field. -/
def Obligations.JumpTakesItsAddressField : Prop :=
  ∀ (s : State) (nnn : Addr12), ∃ t, exec (.jp nnn) s = .next t ∧ t.pc.toNat = nnn.toNat ∧ Frame {} s t

/-- 40_flow.md (Bnnn): the target is the address field plus `V[0]`, not reduced. The last the spec marks as its own
inference ("The sum is not reduced modulo 4096 [derived: the source's row has no `mod` and `PC` is 16 bits wide]"). -/
def Obligations.ComputedJumpAddsRegisterZero : Prop :=
  ∀ (s : State) (nnn : Addr12), ∃ t, exec (.jpV0 nnn) s = .next t ∧
    t.pc.toNat = nnn.toNat + (State.readV s 0).toNat ∧ Frame {} s t

/-- R124, R125: skip by comparison with an immediate. -/
def Obligations.SkipsOnImmediateComparison : Prop :=
  ∀ (s : State) (x : Reg) (kk : Byte),
    (∃ t, exec (.seImm x kk) s = .next t ∧
      t.pc = (if State.readV s x = kk then s.pc + 4 else s.pc + 2) ∧ Frame {} s t) ∧
    (∃ t, exec (.sneImm x kk) s = .next t ∧
      t.pc = (if State.readV s x = kk then s.pc + 2 else s.pc + 4) ∧ Frame {} s t)

/-- R126, R127: skip by comparison of two registers. -/
def Obligations.SkipsOnRegisterComparison : Prop :=
  ∀ (s : State) (x y : Reg),
    (∃ t, exec (.seReg x y) s = .next t ∧
      t.pc = (if State.readV s x = State.readV s y then s.pc + 4 else s.pc + 2) ∧ Frame {} s t) ∧
    (∃ t, exec (.sneReg x y) s = .next t ∧
      t.pc = (if State.readV s x = State.readV s y then s.pc + 2 else s.pc + 4) ∧ Frame {} s t)

/-- R129, with the subroutine between: a call that succeeds, then a 00EE in any later state in which the call stack and
`SP` are as the call left them, lands exactly 2 bytes past the call with `SP` as before the call. The bound of 15 on the
call is decision D4 (log 6). -/
def Obligations.CallThenReturnComesBackPastTheCall : Prop :=
  ∀ (s t u : State) (nnn : Addr12), s.sp.toNat < 15 → exec (.call nnn) s = .next t →
    u.sp = t.sp → u.stack = t.stack →
    ∃ w, exec .ret u = .next w ∧ w.pc = s.pc + 2 ∧ w.sp = s.sp ∧ w.stack = t.stack

/-! ## Register load and arithmetic (41_load_alu.md) -/

/-- R141, R143. -/
def Obligations.LoadsSetOneRegister : Prop :=
  ∀ (s : State) (x y : Reg) (kk : Byte),
    (∃ t, exec (.ldImm x kk) s = .next t ∧ State.readV t x = kk ∧ t.pc = s.pc + 2 ∧ Frame { regs := [x] } s t) ∧
    (∃ t, exec (.ldReg x y) s = .next t ∧ State.readV t x = State.readV s y ∧ t.pc = s.pc + 2 ∧
      Frame { regs := [x] } s t)

/-- R142: the sum modulo 256, no flag even on wrap-around. -/
def Obligations.AddImmediateWrapsWithoutFlag : Prop :=
  ∀ (s : State) (x : Reg) (kk : Byte), ∃ t, exec (.addImm x kk) s = .next t ∧
    (State.readV t x).toNat = ((State.readV s x).toNat + kk.toNat) % 256 ∧ t.pc = s.pc + 2 ∧
    Frame { regs := [x] } s t

/-- 41_load_alu.md (8xy1, 8xy2, 8xy3), each bit by itself. That `VF` is left alone the spec derives ("the source's row
names no `VF` write"). -/
def Obligations.BitwiseOperationsLeaveTheFlag : Prop :=
  ∀ (s : State) (x y : Reg),
    (∃ t, exec (.orReg x y) s = .next t ∧
      (∀ k, (State.readV t x).getLsbD k = ((State.readV s x).getLsbD k || (State.readV s y).getLsbD k)) ∧
      t.pc = s.pc + 2 ∧ Frame { regs := [x] } s t) ∧
    (∃ t, exec (.andReg x y) s = .next t ∧
      (∀ k, (State.readV t x).getLsbD k = ((State.readV s x).getLsbD k && (State.readV s y).getLsbD k)) ∧
      t.pc = s.pc + 2 ∧ Frame { regs := [x] } s t) ∧
    (∃ t, exec (.xorReg x y) s = .next t ∧
      (∀ k, (State.readV t x).getLsbD k = ((State.readV s x).getLsbD k ^^ (State.readV s y).getLsbD k)) ∧
      t.pc = s.pc + 2 ∧ Frame { regs := [x] } s t)

/-- 41_load_alu.md (8xy4): the flag is the carry, for every x and y; the sum stands in `V[x]` unless x is F, where the
flag is written last (decision D5, log 5). -/
def Obligations.AddSetsTheCarryFlag : Prop :=
  ∀ (s : State) (x y : Reg), ∃ t, exec (.addReg x y) s = .next t ∧
    State.readV t VF = (if (State.readV s x).toNat + (State.readV s y).toNat > 255 then 1 else 0) ∧
    (x ≠ VF → (State.readV t x).toNat = ((State.readV s x).toNat + (State.readV s y).toNat) % 256) ∧
    t.pc = s.pc + 2 ∧ Frame { regs := [x, VF] } s t

/-- 41_load_alu.md (8xy5): the difference modulo 256, for every x and y; the flag is strict greater-than, unless x is F,
where the difference is written last (decision D5, log 5). -/
def Obligations.SubtractSetsTheStrictFlag : Prop :=
  ∀ (s : State) (x y : Reg), ∃ t, exec (.subReg x y) s = .next t ∧
    ((State.readV t x).toNat : Int) = ((State.readV s x).toNat - (State.readV s y).toNat : Int) % 256 ∧
    (x ≠ VF → State.readV t VF = if (State.readV s x).toNat > (State.readV s y).toNat then 1 else 0) ∧
    t.pc = s.pc + 2 ∧ Frame { regs := [x, VF] } s t

/-- 41_load_alu.md (8xy7): as 8xy5 with the operands exchanged; the result still goes to `V[x]` (decision D5 for x = F,
log 5). -/
def Obligations.ReverseSubtractSetsTheStrictFlag : Prop :=
  ∀ (s : State) (x y : Reg), ∃ t, exec (.subnReg x y) s = .next t ∧
    ((State.readV t x).toNat : Int) = ((State.readV s y).toNat - (State.readV s x).toNat : Int) % 256 ∧
    (x ≠ VF → State.readV t VF = if (State.readV s y).toNat > (State.readV s x).toNat then 1 else 0) ∧
    t.pc = s.pc + 2 ∧ Frame { regs := [x, VF] } s t

/-- 41_load_alu.md (8xy6, 8xyE): the operand is `V[x]` whatever y is, the flag the bit shifted out, unless x is F, where
the result is written last (decision D5, log 5). -/
def Obligations.ShiftsSetTheBitShiftedOut : Prop :=
  ∀ (s : State) (x y : Reg),
    (∃ t, exec (.shr x y) s = .next t ∧
      (State.readV t x).toNat = (State.readV s x).toNat / 2 ∧
      (x ≠ VF → State.readV t VF = if (State.readV s x).toNat % 2 = 1 then 1 else 0) ∧
      t.pc = s.pc + 2 ∧ Frame { regs := [x, VF] } s t) ∧
    (∃ t, exec (.shl x y) s = .next t ∧
      (State.readV t x).toNat = (State.readV s x).toNat * 2 % 256 ∧
      (x ≠ VF → State.readV t VF = if (State.readV s x).toNat ≥ 128 then 1 else 0) ∧
      t.pc = s.pc + 2 ∧ Frame { regs := [x, VF] } s t)

/-- 41_load_alu.md (Cxkk): the bits outside the mask are 0, the bits under it are the free byte's, which nothing
constrains (decision D11, log 2); with mask 0 the result is 0 whatever the byte. -/
def Obligations.RandomByteIsMasked : Prop :=
  ∀ (s : State) (x : Reg) (kk : Byte), ∃ t, exec (.rnd x kk) s = .next t ∧
    (∀ k, (State.readV t x).getLsbD k = ((Config.rnd s.draws).getLsbD k && kk.getLsbD k)) ∧
    (kk = 0 → State.readV t x = 0) ∧
    t.draws = s.draws + 1 ∧ t.pc = s.pc + 2 ∧ Frame { regs := [x], draws := true } s t

/-! ## Address register and memory transfer (42_index_memory.md) -/

/-- R171, R172: `I` takes the address field, or a sum modulo 65536, without a flag or a fault. -/
def Obligations.IndexIsLoadedAndAddedTo : Prop :=
  ∀ (s : State) (x : Reg) (nnn : Addr12),
    (∃ t, exec (.ldI nnn) s = .next t ∧ t.i.toNat = nnn.toNat ∧ t.pc = s.pc + 2 ∧ Frame { i := true } s t) ∧
    (∃ t, exec (.addI x) s = .next t ∧ t.i.toNat = (s.i.toNat + (State.readV s x).toNat) % 65536 ∧
      t.pc = s.pc + 2 ∧ Frame { i := true } s t)

/-- 42_index_memory.md (Fx29): `I` is five times the register, unmasked. The factor is decision D7, the missing mask
decision D23 (log 8). -/
def Obligations.FontAddressIsFiveTimesTheDigit : Prop :=
  ∀ (s : State) (x : Reg), ∃ t, exec (.ldFont x) s = .next t ∧ t.i.toNat = (State.readV s x).toNat * 5 ∧
    t.pc = s.pc + 2 ∧ Frame { i := true } s t

/-- 42_index_memory.md (Fx33): hundreds, tens and ones at `I`, `I + 1`, `I + 2`; when `I` is above 0x0FFD
AddressOutOfRange and nothing else. That the fault is a next state whose record holds the kind is decision D12
(log 12). -/
def Obligations.BcdStoresThreeDigits : Prop :=
  ∀ (s : State) (x : Reg),
    (s.i.toNat ≤ 0xFFD → ∃ t, exec (.ldBcd x) s = .next t ∧
      (State.byteAt t s.i.toNat).toNat = (State.readV s x).toNat / 100 ∧
      (State.byteAt t (s.i.toNat + 1)).toNat = (State.readV s x).toNat / 10 % 10 ∧
      (State.byteAt t (s.i.toNat + 2)).toNat = (State.readV s x).toNat % 10 ∧
      t.pc = s.pc + 2 ∧ Frame { bytes := List.range' s.i.toNat 3 } s t) ∧
    (0xFFD < s.i.toNat → ∃ t, exec (.ldBcd x) s = .next t ∧ t.fault.kind = .addressOutOfRange ∧
      t = { s with fault := t.fault })

/-- 42_index_memory.md (Fx55): registers 0 to x at `I` upward, `I` unchanged (which the spec derives); out of range
AddressOutOfRange and nothing written. -/
def Obligations.StoreCopiesLowRegistersToMemory : Prop :=
  ∀ (s : State) (x : Reg),
    (s.i.toNat + x.toNat ≤ 0xFFF → ∃ t, exec (.storeRegs x) s = .next t ∧
      (∀ k : Reg, k.toNat ≤ x.toNat → State.byteAt t (s.i.toNat + k.toNat) = State.readV s k) ∧
      t.pc = s.pc + 2 ∧ Frame { bytes := List.range' s.i.toNat (x.toNat + 1) } s t) ∧
    (0xFFF < s.i.toNat + x.toNat → ∃ t, exec (.storeRegs x) s = .next t ∧ t.fault.kind = .addressOutOfRange ∧
      t = { s with fault := t.fault })

/-- 42_index_memory.md (Fx65): registers 0 to x from `I` upward, `I` unchanged (which the spec derives); out of range
AddressOutOfRange and no register changes. -/
def Obligations.LoadCopiesMemoryToLowRegisters : Prop :=
  ∀ (s : State) (x : Reg),
    (s.i.toNat + x.toNat ≤ 0xFFF → ∃ t, exec (.loadRegs x) s = .next t ∧
      (∀ k : Reg, k.toNat ≤ x.toNat → State.readV t k = State.byteAt s (s.i.toNat + k.toNat)) ∧
      t.pc = s.pc + 2 ∧ Frame { regs := lowRegs x } s t) ∧
    (0xFFF < s.i.toNat + x.toNat → ∃ t, exec (.loadRegs x) s = .next t ∧ t.fault.kind = .addressOutOfRange ∧
      t = { s with fault := t.fault })

/-- 42_index_memory.md: what Fx55 stored, an Fx65 with the same x loads back, in any later state whose memory and `I` are
as the store left them. -/
def Obligations.StoredRegistersLoadBack : Prop :=
  ∀ (s t u : State) (x : Reg), s.i.toNat + x.toNat ≤ 0xFFF → exec (.storeRegs x) s = .next t →
    u.mem = t.mem → u.i = t.i →
    ∃ w, exec (.loadRegs x) u = .next w ∧ ∀ k : Reg, k.toNat ≤ x.toNat → State.readV w k = State.readV s k

/-- 20_memory.md (self-modifying code): two registers that Fx55 stores at the address of the next instruction are what the
next fetch reads. That fetch sees stores at once the spec derives. -/
def Obligations.StoreIntoTheNextInstructionIsFetched : Prop :=
  ∀ (s : State) (x k j : Reg), s.i.toNat + x.toNat ≤ 0xFFF → j.toNat = k.toNat + 1 → j.toNat ≤ x.toNat →
    s.pc.toNat + 2 = s.i.toNat + k.toNat →
    ∃ t, exec (.storeRegs x) s = .next t ∧
      State.fetch t = .ok (wordOfBytes (State.readV s k) (State.readV s j))

/-! ## Memory (20_memory.md) -/

/-- 20_memory.md (`MemRead`): everything it answers. That the address does not wrap is decision D18, that the lowest
address out of range is reported decision D19 (log 16). -/
def Obligations.MemReadGivesTheBytesOrTheAddress : Prop :=
  ∀ (s : State) (a n : Nat),
    (n = 0 → State.memRead s a n = .ok []) ∧
    (n ≠ 0 → 0xFFF < a + n - 1 → State.memRead s a n = .error (max a 0x1000)) ∧
    (n ≠ 0 → a + n - 1 ≤ 0xFFF → ∃ bs, State.memRead s a n = .ok bs ∧ bs.length = n ∧
      ∀ k, k < n → bs[k]? = some (State.byteAt s (a + k)))

/-- 20_memory.md (`MemWrite`): everything it answers, for a list of at least one byte. That the address does not wrap is
decision D18, that the lowest address out of range is reported decision D19 (log 16). -/
def Obligations.MemWriteWritesAllOrNothing : Prop :=
  ∀ (s : State) (a : Nat) (bs : List Byte), bs ≠ [] →
    (0xFFF < a + bs.length - 1 → State.memWrite s a bs = .error (max a 0x1000)) ∧
    (a + bs.length - 1 ≤ 0xFFF → ∃ t, State.memWrite s a bs = .ok t ∧
      (∀ k, k < bs.length → bs[k]? = some (State.byteAt t (a + k))) ∧
      (∀ c, c < a ∨ a + bs.length ≤ c → State.byteAt t c = State.byteAt s c) ∧
      t = { s with mem := t.mem })

/-- 20_memory.md, byte order and alignment: the word at `PC` is big-endian, `PC` odd or even (decision D14, log 13). The
only fetch fault is range (60_exceptions.md, AddressOutOfRange), the address reported being the lowest out of range
(decisions D18, D19; log 16). -/
def Obligations.FetchIsBigEndianAtAnyAddress : Prop :=
  ∀ s : State,
    (s.pc.toNat ≤ 0xFFE → ∃ w, State.fetch s = .ok w ∧
      w.toNat = (State.byteAt s s.pc.toNat).toNat * 256 + (State.byteAt s (s.pc.toNat + 1)).toNat) ∧
    (0xFFE < s.pc.toNat → State.fetch s = .error (max s.pc.toNat 0x1000))

/-! ## The display (43_display.md) -/

/-- 43_display.md (00E0): every pixel 0, nothing else; that `VF` is left alone the spec derives. -/
def Obligations.ClearLeavesEveryPixelUnset : Prop :=
  ∀ s : State, ∃ t, exec .cls s = .next t ∧ (∀ px py, State.pixel t px py = false) ∧ t.pc = s.pc + 2 ∧
    Frame { fb := true } s t

/-- 43_display.md (Dxyn): each pixel of the grid is XORed with the sprite bit that falls on it, wrapping in both
directions. The grid's size is decision D6 (log 7), coordinates in `VF` decision D5 (log 5). -/
def Obligations.DrawXorsTheSpriteIntoEachPixel : Prop :=
  ∀ (s : State) (x y : Reg) (n : BitVec 4), SpriteReadable s n →
    ∃ t, exec (.drw x y n) s = .next t ∧
      (∀ px py, px < 64 → py < 32 → State.pixel t px py = (State.pixel s px py ^^ spriteBit s x y n px py)) ∧
      t.pc = s.pc + 2 ∧ Frame { regs := [VF], fb := true } s t

/-- 43_display.md (Dxyn): `VF` is 1 exactly when some pixel goes from 1 to 0, and 0 otherwise; it is written on every
draw, and with no row it is 0. Grid size D6, coordinates in `VF` D5 (log 7, log 5). -/
def Obligations.DrawSetsTheCollisionFlag : Prop :=
  ∀ (s : State) (x y : Reg) (n : BitVec 4), SpriteReadable s n →
    ∃ t, exec (.drw x y n) s = .next t ∧
      ((∃ px py, px < 64 ∧ py < 32 ∧ State.pixel s px py = true ∧ State.pixel t px py = false) →
        State.readV t VF = 1) ∧
      ((∀ px py, px < 64 → py < 32 → State.pixel s px py = true → State.pixel t px py = true) →
        State.readV t VF = 0) ∧
      (n = 0 → State.readV t VF = 0 ∧ t.fb = s.fb)

/-- 43_display.md, the properties of the draw: drawing the same sprite twice at one place, x and y not F, restores the
framebuffer, and the second draw collides exactly where the first set a pixel. -/
def Obligations.DrawingTwiceRestoresTheFramebuffer : Prop :=
  ∀ (s : State) (x y : Reg) (n : BitVec 4), SpriteReadable s n → x ≠ VF → y ≠ VF →
    ∃ t u, exec (.drw x y n) s = .next t ∧ exec (.drw x y n) t = .next u ∧ u.fb = s.fb ∧
      (State.readV u VF = 1 ↔ ∃ px py, px < 64 ∧ py < 32 ∧ spriteBit s x y n px py = true ∧
        State.pixel s px py = false)

/-! ## Keypad and timers (44_timer_key.md) -/

/-- 44_timer_key.md (Ex9E, ExA1): skip by the level of the key whose number is the low four bits of the register
(decision D9, log 10). -/
def Obligations.KeySkipsTestTheSelectedKey : Prop :=
  ∀ (s : State) (x : Reg) (k : Key), k.toNat = (State.readV s x).toNat % 16 →
    (∃ t, exec (.skp x) s = .next t ∧
      t.pc = (if State.keyDown s k = true then s.pc + 4 else s.pc + 2) ∧ Frame {} s t) ∧
    (∃ t, exec (.sknp x) s = .next t ∧
      t.pc = (if State.keyDown s k = true then s.pc + 2 else s.pc + 4) ∧ Frame {} s t)

/-- R203: the delay timer is read and not changed. -/
def Obligations.DelayTimerIsRead : Prop :=
  ∀ (s : State) (x : Reg), ∃ t, exec (.ldVxDt x) s = .next t ∧ State.readV t x = s.dt ∧ t.pc = s.pc + 2 ∧
    Frame { regs := [x] } s t

/-- 44_timer_key.md (Fx15, Fx18): each sets one timer from the register; `sound_active` follows the sound timer. Of a
`STEP` and a `TICK` requested together the step comes first (decision D15, log 14), and the tick then lowers the new
value once. -/
def Obligations.TimersAreSetFromARegister : Prop :=
  (∀ (s : State) (x : Reg),
    (∃ t, exec (.ldDtVx x) s = .next t ∧ t.dt = State.readV s x ∧
      (State.tick t).dt.toNat = (State.readV s x).toNat - 1 ∧ t.pc = s.pc + 2 ∧ Frame { dt := true } s t) ∧
    (∃ t, exec (.ldStVx x) s = .next t ∧ t.st = State.readV s x ∧
      (State.tick t).st.toNat = (State.readV s x).toNat - 1 ∧
      (State.soundActive t = true ↔ State.readV s x ≠ 0) ∧ t.pc = s.pc + 2 ∧ Frame { st := true } s t)) ∧
  coincidentOrders .step .tick = [[.step, .tick]] ∧ coincidentOrders .tick .step = [[.step, .tick]]

/-- 44_timer_key.md (Fx0A): with no key down the step changes nothing; with keys down the lowest one's number is stored
(decision D10, log 11). -/
def Obligations.KeyWaitPollsForTheLowestKey : Prop :=
  ∀ (s : State) (x : Reg),
    ((∀ k, State.keyDown s k = false) → exec (.ldVxKey x) s = .next s) ∧
    (∀ k : Key, State.keyDown s k = true → (∀ j : Key, j.toNat < k.toNat → State.keyDown s j = false) →
      ∃ t, exec (.ldVxKey x) s = .next t ∧ (State.readV t x).toNat = k.toNat ∧ t.pc = s.pc + 2 ∧
        Frame { regs := [x] } s t)

/-- 10_state.md (`awaiting_input`): the output is 1 exactly when no fault is recorded, the word at `PC` is in range and an
Fx0A, and no key is down; the `STEP` is then a stutter (decision D10, log 11). -/
def Obligations.AwaitingInputIsAStutter : Prop :=
  ∀ s : State,
    (State.awaitingInput s = true ↔ s.fault.kind = .none ∧ s.pc.toNat ≤ 0xFFE ∧
      (∃ x, decode (wordOfBytes (State.byteAt s s.pc.toNat) (State.byteAt s (s.pc.toNat + 1))) = .ok (.ldVxKey x)) ∧
      ∀ k, State.keyDown s k = false) ∧
    (State.awaitingInput s = true → s.agenda = [] → step s = .next s)

/-! ## The step and its faults (10_state.md, 60_exceptions.md) -/

/-- R43: where no fault is recorded and the two bytes at `PC` decode to an instruction, the step, be it the one due with
nothing scheduled or a scheduled `STEP`, is the instruction's meaning at that state and nothing around it. -/
def Obligations.StepRunsTheDecodedInstruction : Prop :=
  ∀ (s : State) (i : Instr) (rest : List Transaction), s.fault.kind = .none → s.pc.toNat ≤ 0xFFE →
    decode (wordOfBytes (State.byteAt s s.pc.toNat) (State.byteAt s (s.pc.toNat + 1))) = .ok i →
    (s.agenda = [] → step s = exec i s) ∧
    (s.agenda = .step :: rest → step s = exec i { s with agenda := rest })

/-- The host's `withFetchWord` (log 15): the word of a table row put where the next step fetches is what the next step
runs, from every state. -/
def Obligations.PlacedWordIsTheNextInstruction : Prop :=
  ∀ (s : State) (nbits w : Nat) (i : Instr), decodeTableWord nbits w = some i →
    step (State.withFetchWord s nbits w) = exec i (State.withFetchWord s nbits w)

/-- 60_exceptions.md (UnknownInstruction): a word that matches no row of the opcode map faults and only the record
changes. The record is decision D12, the illegal words of families 0, 5 and 9 decision D8 (log 12, log 9). -/
def Obligations.IllegalWordRaisesUnknownInstruction : Prop :=
  ∀ (s : State) (w : Word), s.agenda = [] → s.fault.kind = .none → s.pc.toNat ≤ 0xFFE →
    w = wordOfBytes (State.byteAt s s.pc.toNat) (State.byteAt s (s.pc.toNat + 1)) → LegalWord w = false →
    step s = .next { s with
      fault := { kind := .unknownInstruction, pc := s.pc, opcode := w, opvalid := true, addr := 0 } }

/-- 60_exceptions.md (fetch): `PC` above 0x0FFE faults; the record has no valid opcode and the lowest offending address
(decisions D12, D18, D19; log 12, log 16). -/
def Obligations.FetchOutsideMemoryFaults : Prop :=
  ∀ s : State, s.agenda = [] → s.fault.kind = .none → 0xFFE < s.pc.toNat →
    ∃ t, step s = .next t ∧ t.fault.kind = .addressOutOfRange ∧ t.fault.pc = s.pc ∧ t.fault.opvalid = false ∧
      t.fault.addr.toNat = max s.pc.toNat 0x1000 ∧ t.pc = s.pc ∧ Frame { fault := true, draws := true } s t

/-- 60_exceptions.md (Fx33, Fx55, Fx65, Dxyn): when a byte of the access lies above 0xFFF the record holds `PC`, the
instruction's word and the lowest offending address, and nothing else changes (decisions D12, D18, D19; log 12, log 16). -/
def Obligations.DataAccessOutsideMemoryFaults : Prop :=
  ∀ (i : Instr) (s : State), dataBytes i ≠ 0 → 0x1000 < s.i.toNat + dataBytes i →
    ∃ t, exec i s = .next t ∧ t.fault.kind = .addressOutOfRange ∧ t.fault.pc = s.pc ∧
      t.fault.opcode = encode i ∧ t.fault.opvalid = true ∧ t.fault.addr.toNat = max s.i.toNat 0x1000 ∧
      t = { s with fault := t.fault }

/-- 60_exceptions.md (StackOverflow, StackUnderflow): what the record holds (decisions D4, D12; log 6, log 12). -/
def Obligations.StackFaultsRecordTheInstruction : Prop :=
  ∀ (s : State) (nnn : Addr12),
    (s.sp = 15 → exec (.call nnn) s = .next { s with
      fault := { kind := .stackOverflow, pc := s.pc, opcode := encode (.call nnn), opvalid := true, addr := 0 } }) ∧
    (s.sp = 0 → exec .ret s = .next { s with
      fault := { kind := .stackUnderflow, pc := s.pc, opcode := 0x00EE, opvalid := true, addr := 0 } })

/-- R225: a step that faults changes nothing but the fault record (and the model's own count of free values). -/
def Obligations.FaultingStepChangesOnlyTheRecord : Prop :=
  ∀ s t : State, s.agenda = [] → s.fault.kind = .none → step s = .next t → t.fault.kind ≠ .none →
    t = { s with fault := t.fault, draws := t.draws } ∧ t.fault.pc = s.pc

/-- 60_exceptions.md (priority): the one fault each instruction can raise when it executes, and none for the others; that
no instruction can raise two the spec derives. -/
def Obligations.InstructionsRaiseOnlyTheirOwnFault : Prop :=
  ∀ (i : Instr) (s t : State), s.fault.kind = .none → exec i s = .next t → t.fault.kind ≠ .none →
    executeFault i = some t.fault.kind

/-- 60_exceptions.md (after a fault): from a state with a fault recorded every transaction but `RESET` leaves the record,
and of the rest changes at most the timers, the latch and the schedule. A `STEP` has no effect, a `TICK` still lowers the
timers and a `KEY` still sets its latch bit (decisions D12, D16, and for `KEY` an inference from its rule's having no
condition; log 12, log 14). -/
def Obligations.RecordedFaultStaysUntilReset : Prop :=
  ∀ s : State, s.fault.kind ≠ .none → (∀ image rest, s.agenda ≠ .reset image :: rest) →
    ∃ t, step s = .next t ∧ t = { s with dt := t.dt, st := t.st, key := t.key, agenda := t.agenda } ∧
      (s.agenda = [] → t = s) ∧
      (∀ rest, s.agenda = .step :: rest → t = { s with agenda := rest }) ∧
      (∀ rest, s.agenda = .tick :: rest →
        t.dt.toNat = s.dt.toNat - 1 ∧ t.st.toNat = s.st.toNat - 1 ∧ t.key = s.key ∧ t.agenda = rest) ∧
      (∀ k down rest, s.agenda = .key k down :: rest →
        State.keyDown t k = down ∧ (∀ j, j ≠ k → State.keyDown t j = State.keyDown s j) ∧
        t.dt = s.dt ∧ t.st = s.st ∧ t.agenda = rest)

/-! ## The environment's transactions (10_state.md) -/

/-- 10_state.md (`TICK`): each timer one lower, floored at 0, nothing else, in every condition of the block (decision D16
for the faulted one, log 14). -/
def Obligations.TickLowersEachTimerByOne : Prop :=
  ∀ (s : State) (rest : List Transaction), s.agenda = .tick :: rest →
    ∃ t, step s = .next t ∧ t.dt.toNat = s.dt.toNat - 1 ∧ t.st.toNat = s.st.toNat - 1 ∧
      t = { s with dt := t.dt, st := t.st, agenda := rest }

/-- 10_state.md (`KEY`): `KEY(k, down)` sets one latch bit and touches nothing else, in every condition of the block. That
it acts after a fault too is deduced from its rule's having no condition (log 14). -/
def Obligations.KeySetsOneLatchBit : Prop :=
  ∀ (s : State) (k : Key) (down : Bool) (rest : List Transaction), s.agenda = .key k down :: rest →
    ∃ t, step s = .next t ∧ State.keyDown t k = down ∧
      (∀ j, j ≠ k → State.keyDown t j = State.keyDown s j) ∧ t = { s with key := t.key, agenda := rest }

/-- 10_state.md (`RESET`, `LOAD`): every part of the state at its reset value from any state, faulted ones too, and memory
the image: at each address the byte loaded there last, 0 where none was. The zeros are decision D3, the folding of the
loads decision D17 (log 4, log 15). -/
def Obligations.ResetLoadsTheImageOverZeroes : Prop :=
  ∀ (s : State) (image : List (Addr12 × Byte)) (rest : List Transaction), s.agenda = .reset image :: rest →
    ∃ t, step s = .next t ∧
      (∀ a, State.byteAt t a = ((image.reverse.find? fun p => p.1.toNat == a).map (·.2)).getD 0) ∧
      t = { State.reset with mem := t.mem, draws := s.draws, agenda := rest }

/-- R260: after `RESET` with any image the first instruction fetched is the word at the constant address 0x200. -/
def Obligations.FirstFetchAfterResetIsAt200 : Prop :=
  ∀ (s : State) (image : List (Addr12 × Byte)) (rest : List Transaction), s.agenda = .reset image :: rest →
    ∃ t, step s = .next t ∧ t.pc = 0x200 ∧
      State.fetch t = .ok (wordOfBytes (State.byteAt t 0x200) (State.byteAt t 0x201))

/-- 10_state.md, reset values: `PC` and memory by the source, the zeros of the rest by decisions D3 and D12 (log 4,
log 12). -/
def Obligations.ResetStateHoldsTheResetValues : Prop :=
  State.reset.pc = 0x200 ∧ (∀ a, State.byteAt State.reset a = 0) ∧ State.reset.sp = 0 ∧
  (∀ x, State.readV State.reset x = 0) ∧ State.reset.i = 0 ∧
  (∀ k, k < 16 → State.reset.stack[k]? = some 0) ∧ State.reset.dt = 0 ∧ State.reset.st = 0 ∧
  (∀ px py, State.pixel State.reset px py = false) ∧ (∀ k, State.keyDown State.reset k = false) ∧
  State.reset.fault = { kind := .none, pc := 0, opcode := 0, opvalid := false, addr := 0 }

/-! ## Rules of the whole machine -/

/-- 10_state.md, how `PC` advances: in every step that does not fault, by the class of the instruction. Which key Ex9E and
ExA1 test is decision D9, that Fx0A waits without a change of `PC` decision D10 (log 10, log 11). -/
def Obligations.ProgramCounterAdvancesByClass : Prop :=
  ∀ (i : Instr) (s t : State), s.fault.kind = .none → exec i s = .next t → t.fault.kind = .none → t.pc = nextPc i s

/-- 10_state.md, the aggregate's column "written by" and the tables of the general and the flag registers: no instruction
writes anything but what these list for it (the tables' completeness the spec derives). -/
def Obligations.InstructionsWriteOnlyTheirFootprint : Prop :=
  ∀ (i : Instr) (s t : State), exec i s = .next t → Frame (footprint i s) s t

/-- 10_state.md, the timers: a timer rises only in a step that executes the instruction that sets it: a `STEP` is due, no
fault is recorded, and the word at `PC` is an Fx15 or Fx18. -/
def Obligations.TimerRisesOnlyWhenSet : Prop :=
  ∀ s t : State, step s = .next t →
    (s.dt.toNat < t.dt.toNat → s.fault.kind = .none ∧ (s.agenda = [] ∨ ∃ rest, s.agenda = .step :: rest) ∧
      ∃ x, State.instrAtPc s = some (.ldDtVx x)) ∧
    (s.st.toNat < t.st.toNat → s.fault.kind = .none ∧ (s.agenda = [] ∨ ∃ rest, s.agenda = .step :: rest) ∧
      ∃ x, State.instrAtPc s = some (.ldStVx x))

/-- 20_memory.md, ordering against the other transactions, with 44_timer_key.md and 10_state.md: a tick before or after an
instruction that neither reads nor sets a timer makes no difference, and neither does a key change before or after an
instruction that does not read the latch. -/
def Obligations.EnvironmentCommutesWithOtherInstructions : Prop :=
  ∀ (i : Instr) (s t : State), exec i s = .next t →
    ((∀ x, i ≠ .ldVxDt x ∧ i ≠ .ldDtVx x ∧ i ≠ .ldStVx x) → exec i (State.tick s) = .next (State.tick t)) ∧
    ((∀ x, i ≠ .skp x ∧ i ≠ .sknp x ∧ i ≠ .ldVxKey x) →
      ∀ (k : Key) (down : Bool), exec i (State.setKey s k down) = .next (State.setKey t k down))

/-- 10_state.md, 60_exceptions.md: every transaction keeps the invariant: memory canonical, `SP` at most 15, the fault
record legal. The bound and the record's fields are decisions D4, D12 and D19 (log 6, log 12, log 16). -/
def Obligations.EveryStepKeepsTheInvariant : Prop :=
  ∀ s t : State, Inv s → step s = .next t → Inv t

/-- The invariant holds at reset. -/
def Obligations.ResetStateMeetsTheInvariant : Prop :=
  Inv State.reset

/-- 60_exceptions.md: from a state that meets the invariant a step answers a next state, whatever the instruction and the
transaction: the model's own fault for a stack index that does not exist (log 18) is never reached. -/
def Obligations.NoLegalStateStopsTheModel : Prop :=
  ∀ s : State, Inv s → ∃ t, step s = .next t
end

