-- ==== Sys2Proof/Laws/Decode.lean ====
section
/-! SUPPORT. The fields of the encoder's words, and the bytes of a word: one lemma per field per format. -/

namespace Sys2Proof

/-! ### Fields of a word by its parts -/

theorem famOf_encodeA (f : BitVec 4) (a : Addr12) : famOf (encodeA f a) = f := by
  apply BitVec.eq_of_toNat_eq
  simp only [famOf, encodeA, BitVec.extractLsb'_toNat, BitVec.toNat_append, Nat.shiftRight_eq_div_pow]
  rw [← Nat.shiftLeft_add_eq_or_of_lt a.isLt, Nat.shiftLeft_eq]; omega

theorem nnnOf_encodeA (f : BitVec 4) (a : Addr12) : nnnOf (encodeA f a) = a := by
  apply BitVec.eq_of_toNat_eq
  simp only [nnnOf, encodeA, BitVec.extractLsb'_toNat, BitVec.toNat_append, Nat.shiftRight_eq_div_pow]
  rw [← Nat.shiftLeft_add_eq_or_of_lt a.isLt, Nat.shiftLeft_eq]; omega

/-- The number an `XK` word spells. -/
theorem encodeXK_toNat (f : BitVec 4) (x : Reg) (k : Byte) :
    (encodeXK f x k).toNat = f.toNat * 4096 + x.toNat * 256 + k.toNat := by
  simp only [encodeXK, BitVec.toNat_append]
  rw [← Nat.shiftLeft_add_eq_or_of_lt x.isLt, ← Nat.shiftLeft_add_eq_or_of_lt k.isLt, Nat.shiftLeft_eq,
    Nat.shiftLeft_eq]; omega

/-- The number an `XYN` word spells. -/
theorem encodeXYN_toNat (f : BitVec 4) (x y : Reg) (n : BitVec 4) :
    (encodeXYN f x y n).toNat = f.toNat * 4096 + x.toNat * 256 + y.toNat * 16 + n.toNat := by
  simp only [encodeXYN, BitVec.toNat_append]
  rw [← Nat.shiftLeft_add_eq_or_of_lt x.isLt, ← Nat.shiftLeft_add_eq_or_of_lt y.isLt,
    ← Nat.shiftLeft_add_eq_or_of_lt n.isLt, Nat.shiftLeft_eq, Nat.shiftLeft_eq, Nat.shiftLeft_eq]; omega

/-- The number an `A` word spells. -/
theorem encodeA_toNat (f : BitVec 4) (a : Addr12) : (encodeA f a).toNat = f.toNat * 4096 + a.toNat := by
  simp only [encodeA, BitVec.toNat_append]
  rw [← Nat.shiftLeft_add_eq_or_of_lt a.isLt, Nat.shiftLeft_eq]

/-! ### Each field as a number (30_encoding.md R91) -/

theorem famOf_toNat (w : Word) : (famOf w).toNat = w.toNat / 4096 := by
  simp only [famOf, BitVec.extractLsb'_toNat, Nat.shiftRight_eq_div_pow]; omega

theorem xOf_toNat (w : Word) : (xOf w).toNat = w.toNat / 256 % 16 := by
  simp only [xOf, BitVec.extractLsb'_toNat, Nat.shiftRight_eq_div_pow]

theorem yOf_toNat (w : Word) : (yOf w).toNat = w.toNat / 16 % 16 := by
  simp only [yOf, BitVec.extractLsb'_toNat, Nat.shiftRight_eq_div_pow]

theorem nOf_toNat (w : Word) : (nOf w).toNat = w.toNat % 16 := by
  simp only [nOf, BitVec.extractLsb'_toNat, Nat.shiftRight_zero]

theorem kkOf_toNat (w : Word) : (kkOf w).toNat = w.toNat % 256 := by
  simp only [kkOf, BitVec.extractLsb'_toNat, Nat.shiftRight_zero]

theorem nnnOf_toNat (w : Word) : (nnnOf w).toNat = w.toNat % 4096 := by
  simp only [nnnOf, BitVec.extractLsb'_toNat, Nat.shiftRight_eq_div_pow]; omega

/-! ### Fields of the encoder's words -/

theorem famOf_encodeXK (f : BitVec 4) (x : Reg) (k : Byte) : famOf (encodeXK f x k) = f := by
  apply BitVec.eq_of_toNat_eq; rw [famOf_toNat, encodeXK_toNat]; omega

theorem xOf_encodeXK (f : BitVec 4) (x : Reg) (k : Byte) : xOf (encodeXK f x k) = x := by
  apply BitVec.eq_of_toNat_eq; rw [xOf_toNat, encodeXK_toNat]; omega

theorem kkOf_encodeXK (f : BitVec 4) (x : Reg) (k : Byte) : kkOf (encodeXK f x k) = k := by
  apply BitVec.eq_of_toNat_eq; rw [kkOf_toNat, encodeXK_toNat]; omega

theorem famOf_encodeXYN (f : BitVec 4) (x y : Reg) (n : BitVec 4) : famOf (encodeXYN f x y n) = f := by
  apply BitVec.eq_of_toNat_eq; rw [famOf_toNat, encodeXYN_toNat]; omega

theorem xOf_encodeXYN (f : BitVec 4) (x y : Reg) (n : BitVec 4) : xOf (encodeXYN f x y n) = x := by
  apply BitVec.eq_of_toNat_eq; rw [xOf_toNat, encodeXYN_toNat]; omega

theorem yOf_encodeXYN (f : BitVec 4) (x y : Reg) (n : BitVec 4) : yOf (encodeXYN f x y n) = y := by
  apply BitVec.eq_of_toNat_eq; rw [yOf_toNat, encodeXYN_toNat]; omega

theorem nOf_encodeXYN (f : BitVec 4) (x y : Reg) (n : BitVec 4) : nOf (encodeXYN f x y n) = n := by
  apply BitVec.eq_of_toNat_eq; rw [nOf_toNat, encodeXYN_toNat]; omega

/-! ### A word and its two bytes (20_memory.md R65) -/

theorem wordOfBytes_toNat (hi lo : Byte) : (wordOfBytes hi lo).toNat = hi.toNat * 256 + lo.toNat := by
  simp only [wordOfBytes, BitVec.toNat_append]
  rw [← Nat.shiftLeft_add_eq_or_of_lt lo.isLt, Nat.shiftLeft_eq]

theorem wordOfBytes_hiByte_loByte (w : Word) : wordOfBytes (hiByte w) (loByte w) = w := by
  apply BitVec.eq_of_toNat_eq
  rw [wordOfBytes_toNat]
  simp only [hiByte, loByte, BitVec.extractLsb'_toNat, Nat.shiftRight_eq_div_pow]; omega

/-! ### The families that accept `n = 0` only -/

/-- All that families 5 and 9 can accept (R94). -/
theorem decodeNeedsZero_ok {w : Word} {c : Reg → Reg → Instr} {i : Instr} (h : decodeNeedsZero w c = .ok i) :
    nOf w = 0 ∧ i = c (xOf w) (yOf w) := by
  unfold decodeNeedsZero at h
  split at h
  · exact ⟨‹_›, by simpa using h.symm⟩
  · simp at h

end Sys2Proof
end

