-- ==== Sys2Proof/Laws/State.lean ====
section
/-! SUPPORT. One lemma per field per update of the state, each true by unfolding once, so that no later proof unfolds a
record update; and the accessors read through the updates that leave their field alone. -/

namespace Sys2Proof.Machine

variable (s : State)

/-! ### `State.goto` -/

@[simp] theorem State.v_goto (w : Word) : (State.goto s w).v = s.v := rfl
@[simp] theorem State.i_goto (w : Word) : (State.goto s w).i = s.i := rfl
@[simp] theorem State.pc_goto (w : Word) : (State.goto s w).pc = w := rfl
@[simp] theorem State.sp_goto (w : Word) : (State.goto s w).sp = s.sp := rfl
@[simp] theorem State.stack_goto (w : Word) : (State.goto s w).stack = s.stack := rfl
@[simp] theorem State.dt_goto (w : Word) : (State.goto s w).dt = s.dt := rfl
@[simp] theorem State.st_goto (w : Word) : (State.goto s w).st = s.st := rfl
@[simp] theorem State.fb_goto (w : Word) : (State.goto s w).fb = s.fb := rfl
@[simp] theorem State.key_goto (w : Word) : (State.goto s w).key = s.key := rfl
@[simp] theorem State.mem_goto (w : Word) : (State.goto s w).mem = s.mem := rfl
@[simp] theorem State.fault_goto (w : Word) : (State.goto s w).fault = s.fault := rfl
@[simp] theorem State.draws_goto (w : Word) : (State.goto s w).draws = s.draws := rfl
@[simp] theorem State.agenda_goto (w : Word) : (State.goto s w).agenda = s.agenda := rfl
@[simp] theorem State.readV_goto (w : Word) (q : Reg) :
    State.readV (State.goto s w) q = State.readV s q := rfl
@[simp] theorem State.byteAt_goto (w : Word) (q : Nat) :
    State.byteAt (State.goto s w) q = State.byteAt s q := rfl
@[simp] theorem State.keyDown_goto (w : Word) (q : Key) :
    State.keyDown (State.goto s w) q = State.keyDown s q := rfl

/-! ### `State.advance` -/

@[simp] theorem State.v_advance : (State.advance s).v = s.v := rfl
@[simp] theorem State.i_advance : (State.advance s).i = s.i := rfl
@[simp] theorem State.pc_advance : (State.advance s).pc = s.pc + 2 := rfl
@[simp] theorem State.sp_advance : (State.advance s).sp = s.sp := rfl
@[simp] theorem State.stack_advance : (State.advance s).stack = s.stack := rfl
@[simp] theorem State.dt_advance : (State.advance s).dt = s.dt := rfl
@[simp] theorem State.st_advance : (State.advance s).st = s.st := rfl
@[simp] theorem State.fb_advance : (State.advance s).fb = s.fb := rfl
@[simp] theorem State.key_advance : (State.advance s).key = s.key := rfl
@[simp] theorem State.mem_advance : (State.advance s).mem = s.mem := rfl
@[simp] theorem State.fault_advance : (State.advance s).fault = s.fault := rfl
@[simp] theorem State.draws_advance : (State.advance s).draws = s.draws := rfl
@[simp] theorem State.agenda_advance : (State.advance s).agenda = s.agenda := rfl
@[simp] theorem State.readV_advance (q : Reg) :
    State.readV (State.advance s) q = State.readV s q := rfl
@[simp] theorem State.byteAt_advance (q : Nat) :
    State.byteAt (State.advance s) q = State.byteAt s q := rfl
@[simp] theorem State.keyDown_advance (q : Key) :
    State.keyDown (State.advance s) q = State.keyDown s q := rfl

/-! ### `State.skipIf` -/

@[simp] theorem State.v_skipIf (c : Bool) : (State.skipIf s c).v = s.v := rfl
@[simp] theorem State.i_skipIf (c : Bool) : (State.skipIf s c).i = s.i := rfl
@[simp] theorem State.pc_skipIf (c : Bool) : (State.skipIf s c).pc = if c then s.pc + 4 else s.pc + 2 := rfl
@[simp] theorem State.sp_skipIf (c : Bool) : (State.skipIf s c).sp = s.sp := rfl
@[simp] theorem State.stack_skipIf (c : Bool) : (State.skipIf s c).stack = s.stack := rfl
@[simp] theorem State.dt_skipIf (c : Bool) : (State.skipIf s c).dt = s.dt := rfl
@[simp] theorem State.st_skipIf (c : Bool) : (State.skipIf s c).st = s.st := rfl
@[simp] theorem State.fb_skipIf (c : Bool) : (State.skipIf s c).fb = s.fb := rfl
@[simp] theorem State.key_skipIf (c : Bool) : (State.skipIf s c).key = s.key := rfl
@[simp] theorem State.mem_skipIf (c : Bool) : (State.skipIf s c).mem = s.mem := rfl
@[simp] theorem State.fault_skipIf (c : Bool) : (State.skipIf s c).fault = s.fault := rfl
@[simp] theorem State.draws_skipIf (c : Bool) : (State.skipIf s c).draws = s.draws := rfl
@[simp] theorem State.agenda_skipIf (c : Bool) : (State.skipIf s c).agenda = s.agenda := rfl
@[simp] theorem State.readV_skipIf (c : Bool) (q : Reg) :
    State.readV (State.skipIf s c) q = State.readV s q := rfl
@[simp] theorem State.byteAt_skipIf (c : Bool) (q : Nat) :
    State.byteAt (State.skipIf s c) q = State.byteAt s q := rfl
@[simp] theorem State.keyDown_skipIf (c : Bool) (q : Key) :
    State.keyDown (State.skipIf s c) q = State.keyDown s q := rfl

/-! ### `State.setV` -/

@[simp] theorem State.v_setV (x : Reg) (b : Byte) : (State.setV s x b).v = s.v.set x.toNat b x.isLt := rfl
@[simp] theorem State.i_setV (x : Reg) (b : Byte) : (State.setV s x b).i = s.i := rfl
@[simp] theorem State.pc_setV (x : Reg) (b : Byte) : (State.setV s x b).pc = s.pc := rfl
@[simp] theorem State.sp_setV (x : Reg) (b : Byte) : (State.setV s x b).sp = s.sp := rfl
@[simp] theorem State.stack_setV (x : Reg) (b : Byte) : (State.setV s x b).stack = s.stack := rfl
@[simp] theorem State.dt_setV (x : Reg) (b : Byte) : (State.setV s x b).dt = s.dt := rfl
@[simp] theorem State.st_setV (x : Reg) (b : Byte) : (State.setV s x b).st = s.st := rfl
@[simp] theorem State.fb_setV (x : Reg) (b : Byte) : (State.setV s x b).fb = s.fb := rfl
@[simp] theorem State.key_setV (x : Reg) (b : Byte) : (State.setV s x b).key = s.key := rfl
@[simp] theorem State.mem_setV (x : Reg) (b : Byte) : (State.setV s x b).mem = s.mem := rfl
@[simp] theorem State.fault_setV (x : Reg) (b : Byte) : (State.setV s x b).fault = s.fault := rfl
@[simp] theorem State.draws_setV (x : Reg) (b : Byte) : (State.setV s x b).draws = s.draws := rfl
@[simp] theorem State.agenda_setV (x : Reg) (b : Byte) : (State.setV s x b).agenda = s.agenda := rfl
@[simp] theorem State.byteAt_setV (x : Reg) (b : Byte) (q : Nat) :
    State.byteAt (State.setV s x b) q = State.byteAt s q := rfl
@[simp] theorem State.keyDown_setV (x : Reg) (b : Byte) (q : Key) :
    State.keyDown (State.setV s x b) q = State.keyDown s q := rfl
@[simp] theorem State.fetch_setV (x : Reg) (b : Byte) : State.fetch (State.setV s x b) = State.fetch s := rfl

/-! ### `State.loadV` -/

@[simp] theorem State.v_loadV (bs : List Byte) : (State.loadV s bs).v = loadFrom 0 bs s.v := rfl
@[simp] theorem State.i_loadV (bs : List Byte) : (State.loadV s bs).i = s.i := rfl
@[simp] theorem State.pc_loadV (bs : List Byte) : (State.loadV s bs).pc = s.pc := rfl
@[simp] theorem State.sp_loadV (bs : List Byte) : (State.loadV s bs).sp = s.sp := rfl
@[simp] theorem State.stack_loadV (bs : List Byte) : (State.loadV s bs).stack = s.stack := rfl
@[simp] theorem State.dt_loadV (bs : List Byte) : (State.loadV s bs).dt = s.dt := rfl
@[simp] theorem State.st_loadV (bs : List Byte) : (State.loadV s bs).st = s.st := rfl
@[simp] theorem State.fb_loadV (bs : List Byte) : (State.loadV s bs).fb = s.fb := rfl
@[simp] theorem State.key_loadV (bs : List Byte) : (State.loadV s bs).key = s.key := rfl
@[simp] theorem State.mem_loadV (bs : List Byte) : (State.loadV s bs).mem = s.mem := rfl
@[simp] theorem State.fault_loadV (bs : List Byte) : (State.loadV s bs).fault = s.fault := rfl
@[simp] theorem State.draws_loadV (bs : List Byte) : (State.loadV s bs).draws = s.draws := rfl
@[simp] theorem State.agenda_loadV (bs : List Byte) : (State.loadV s bs).agenda = s.agenda := rfl
@[simp] theorem State.byteAt_loadV (bs : List Byte) (q : Nat) :
    State.byteAt (State.loadV s bs) q = State.byteAt s q := rfl
@[simp] theorem State.keyDown_loadV (bs : List Byte) (q : Key) :
    State.keyDown (State.loadV s bs) q = State.keyDown s q := rfl
@[simp] theorem State.fetch_loadV (bs : List Byte) : State.fetch (State.loadV s bs) = State.fetch s := rfl

/-! ### `State.setI` -/

@[simp] theorem State.v_setI (w : Word) : (State.setI s w).v = s.v := rfl
@[simp] theorem State.i_setI (w : Word) : (State.setI s w).i = w := rfl
@[simp] theorem State.pc_setI (w : Word) : (State.setI s w).pc = s.pc := rfl
@[simp] theorem State.sp_setI (w : Word) : (State.setI s w).sp = s.sp := rfl
@[simp] theorem State.stack_setI (w : Word) : (State.setI s w).stack = s.stack := rfl
@[simp] theorem State.dt_setI (w : Word) : (State.setI s w).dt = s.dt := rfl
@[simp] theorem State.st_setI (w : Word) : (State.setI s w).st = s.st := rfl
@[simp] theorem State.fb_setI (w : Word) : (State.setI s w).fb = s.fb := rfl
@[simp] theorem State.key_setI (w : Word) : (State.setI s w).key = s.key := rfl
@[simp] theorem State.mem_setI (w : Word) : (State.setI s w).mem = s.mem := rfl
@[simp] theorem State.fault_setI (w : Word) : (State.setI s w).fault = s.fault := rfl
@[simp] theorem State.draws_setI (w : Word) : (State.setI s w).draws = s.draws := rfl
@[simp] theorem State.agenda_setI (w : Word) : (State.setI s w).agenda = s.agenda := rfl
@[simp] theorem State.readV_setI (w : Word) (q : Reg) :
    State.readV (State.setI s w) q = State.readV s q := rfl
@[simp] theorem State.byteAt_setI (w : Word) (q : Nat) :
    State.byteAt (State.setI s w) q = State.byteAt s q := rfl
@[simp] theorem State.keyDown_setI (w : Word) (q : Key) :
    State.keyDown (State.setI s w) q = State.keyDown s q := rfl
@[simp] theorem State.fetch_setI (w : Word) : State.fetch (State.setI s w) = State.fetch s := rfl

/-! ### `State.setDt` -/

@[simp] theorem State.v_setDt (b : Byte) : (State.setDt s b).v = s.v := rfl
@[simp] theorem State.i_setDt (b : Byte) : (State.setDt s b).i = s.i := rfl
@[simp] theorem State.pc_setDt (b : Byte) : (State.setDt s b).pc = s.pc := rfl
@[simp] theorem State.sp_setDt (b : Byte) : (State.setDt s b).sp = s.sp := rfl
@[simp] theorem State.stack_setDt (b : Byte) : (State.setDt s b).stack = s.stack := rfl
@[simp] theorem State.dt_setDt (b : Byte) : (State.setDt s b).dt = b := rfl
@[simp] theorem State.st_setDt (b : Byte) : (State.setDt s b).st = s.st := rfl
@[simp] theorem State.fb_setDt (b : Byte) : (State.setDt s b).fb = s.fb := rfl
@[simp] theorem State.key_setDt (b : Byte) : (State.setDt s b).key = s.key := rfl
@[simp] theorem State.mem_setDt (b : Byte) : (State.setDt s b).mem = s.mem := rfl
@[simp] theorem State.fault_setDt (b : Byte) : (State.setDt s b).fault = s.fault := rfl
@[simp] theorem State.draws_setDt (b : Byte) : (State.setDt s b).draws = s.draws := rfl
@[simp] theorem State.agenda_setDt (b : Byte) : (State.setDt s b).agenda = s.agenda := rfl
@[simp] theorem State.readV_setDt (b : Byte) (q : Reg) :
    State.readV (State.setDt s b) q = State.readV s q := rfl
@[simp] theorem State.byteAt_setDt (b : Byte) (q : Nat) :
    State.byteAt (State.setDt s b) q = State.byteAt s q := rfl
@[simp] theorem State.keyDown_setDt (b : Byte) (q : Key) :
    State.keyDown (State.setDt s b) q = State.keyDown s q := rfl
@[simp] theorem State.fetch_setDt (b : Byte) : State.fetch (State.setDt s b) = State.fetch s := rfl

/-! ### `State.setSt` -/

@[simp] theorem State.v_setSt (b : Byte) : (State.setSt s b).v = s.v := rfl
@[simp] theorem State.i_setSt (b : Byte) : (State.setSt s b).i = s.i := rfl
@[simp] theorem State.pc_setSt (b : Byte) : (State.setSt s b).pc = s.pc := rfl
@[simp] theorem State.sp_setSt (b : Byte) : (State.setSt s b).sp = s.sp := rfl
@[simp] theorem State.stack_setSt (b : Byte) : (State.setSt s b).stack = s.stack := rfl
@[simp] theorem State.dt_setSt (b : Byte) : (State.setSt s b).dt = s.dt := rfl
@[simp] theorem State.st_setSt (b : Byte) : (State.setSt s b).st = b := rfl
@[simp] theorem State.fb_setSt (b : Byte) : (State.setSt s b).fb = s.fb := rfl
@[simp] theorem State.key_setSt (b : Byte) : (State.setSt s b).key = s.key := rfl
@[simp] theorem State.mem_setSt (b : Byte) : (State.setSt s b).mem = s.mem := rfl
@[simp] theorem State.fault_setSt (b : Byte) : (State.setSt s b).fault = s.fault := rfl
@[simp] theorem State.draws_setSt (b : Byte) : (State.setSt s b).draws = s.draws := rfl
@[simp] theorem State.agenda_setSt (b : Byte) : (State.setSt s b).agenda = s.agenda := rfl
@[simp] theorem State.readV_setSt (b : Byte) (q : Reg) :
    State.readV (State.setSt s b) q = State.readV s q := rfl
@[simp] theorem State.byteAt_setSt (b : Byte) (q : Nat) :
    State.byteAt (State.setSt s b) q = State.byteAt s q := rfl
@[simp] theorem State.keyDown_setSt (b : Byte) (q : Key) :
    State.keyDown (State.setSt s b) q = State.keyDown s q := rfl
@[simp] theorem State.fetch_setSt (b : Byte) : State.fetch (State.setSt s b) = State.fetch s := rfl

/-! ### `State.setKey` -/

@[simp] theorem State.v_setKey (k : Key) (d : Bool) : (State.setKey s k d).v = s.v := rfl
@[simp] theorem State.i_setKey (k : Key) (d : Bool) : (State.setKey s k d).i = s.i := rfl
@[simp] theorem State.pc_setKey (k : Key) (d : Bool) : (State.setKey s k d).pc = s.pc := rfl
@[simp] theorem State.sp_setKey (k : Key) (d : Bool) : (State.setKey s k d).sp = s.sp := rfl
@[simp] theorem State.stack_setKey (k : Key) (d : Bool) : (State.setKey s k d).stack = s.stack := rfl
@[simp] theorem State.dt_setKey (k : Key) (d : Bool) : (State.setKey s k d).dt = s.dt := rfl
@[simp] theorem State.st_setKey (k : Key) (d : Bool) : (State.setKey s k d).st = s.st := rfl
@[simp] theorem State.fb_setKey (k : Key) (d : Bool) : (State.setKey s k d).fb = s.fb := rfl
@[simp] theorem State.key_setKey (k : Key) (d : Bool) : (State.setKey s k d).key = s.key.set k.toNat d k.isLt := rfl
@[simp] theorem State.mem_setKey (k : Key) (d : Bool) : (State.setKey s k d).mem = s.mem := rfl
@[simp] theorem State.fault_setKey (k : Key) (d : Bool) : (State.setKey s k d).fault = s.fault := rfl
@[simp] theorem State.draws_setKey (k : Key) (d : Bool) : (State.setKey s k d).draws = s.draws := rfl
@[simp] theorem State.agenda_setKey (k : Key) (d : Bool) : (State.setKey s k d).agenda = s.agenda := rfl
@[simp] theorem State.readV_setKey (k : Key) (d : Bool) (q : Reg) :
    State.readV (State.setKey s k d) q = State.readV s q := rfl
@[simp] theorem State.byteAt_setKey (k : Key) (d : Bool) (q : Nat) :
    State.byteAt (State.setKey s k d) q = State.byteAt s q := rfl
@[simp] theorem State.fetch_setKey (k : Key) (d : Bool) : State.fetch (State.setKey s k d) = State.fetch s := rfl

/-! ### `State.tick` -/

@[simp] theorem State.v_tick : (State.tick s).v = s.v := rfl
@[simp] theorem State.i_tick : (State.tick s).i = s.i := rfl
@[simp] theorem State.pc_tick : (State.tick s).pc = s.pc := rfl
@[simp] theorem State.sp_tick : (State.tick s).sp = s.sp := rfl
@[simp] theorem State.stack_tick : (State.tick s).stack = s.stack := rfl
@[simp] theorem State.dt_tick : (State.tick s).dt = tickTimer s.dt := rfl
@[simp] theorem State.st_tick : (State.tick s).st = tickTimer s.st := rfl
@[simp] theorem State.fb_tick : (State.tick s).fb = s.fb := rfl
@[simp] theorem State.key_tick : (State.tick s).key = s.key := rfl
@[simp] theorem State.mem_tick : (State.tick s).mem = s.mem := rfl
@[simp] theorem State.fault_tick : (State.tick s).fault = s.fault := rfl
@[simp] theorem State.draws_tick : (State.tick s).draws = s.draws := rfl
@[simp] theorem State.agenda_tick : (State.tick s).agenda = s.agenda := rfl
@[simp] theorem State.readV_tick (q : Reg) :
    State.readV (State.tick s) q = State.readV s q := rfl
@[simp] theorem State.byteAt_tick (q : Nat) :
    State.byteAt (State.tick s) q = State.byteAt s q := rfl
@[simp] theorem State.keyDown_tick (q : Key) :
    State.keyDown (State.tick s) q = State.keyDown s q := rfl
@[simp] theorem State.fetch_tick : State.fetch (State.tick s) = State.fetch s := rfl

/-! ### `State.setFlag` -/

@[simp] theorem State.v_setFlag (c : Bool) : (State.setFlag s c).v = s.v.set 15 (flagByte c) := rfl
@[simp] theorem State.i_setFlag (c : Bool) : (State.setFlag s c).i = s.i := rfl
@[simp] theorem State.pc_setFlag (c : Bool) : (State.setFlag s c).pc = s.pc := rfl
@[simp] theorem State.sp_setFlag (c : Bool) : (State.setFlag s c).sp = s.sp := rfl
@[simp] theorem State.stack_setFlag (c : Bool) : (State.setFlag s c).stack = s.stack := rfl
@[simp] theorem State.dt_setFlag (c : Bool) : (State.setFlag s c).dt = s.dt := rfl
@[simp] theorem State.st_setFlag (c : Bool) : (State.setFlag s c).st = s.st := rfl
@[simp] theorem State.fb_setFlag (c : Bool) : (State.setFlag s c).fb = s.fb := rfl
@[simp] theorem State.key_setFlag (c : Bool) : (State.setFlag s c).key = s.key := rfl
@[simp] theorem State.mem_setFlag (c : Bool) : (State.setFlag s c).mem = s.mem := rfl
@[simp] theorem State.fault_setFlag (c : Bool) : (State.setFlag s c).fault = s.fault := rfl
@[simp] theorem State.draws_setFlag (c : Bool) : (State.setFlag s c).draws = s.draws := rfl
@[simp] theorem State.agenda_setFlag (c : Bool) : (State.setFlag s c).agenda = s.agenda := rfl
@[simp] theorem State.byteAt_setFlag (c : Bool) (q : Nat) :
    State.byteAt (State.setFlag s c) q = State.byteAt s q := rfl
@[simp] theorem State.keyDown_setFlag (c : Bool) (q : Key) :
    State.keyDown (State.setFlag s c) q = State.keyDown s q := rfl
@[simp] theorem State.fetch_setFlag (c : Bool) : State.fetch (State.setFlag s c) = State.fetch s := rfl

/-! ### `State.resultThenFlag` -/

@[simp] theorem State.i_resultThenFlag (x : Reg) (r : Byte) (c : Bool) : (State.resultThenFlag s x r c).i = s.i := rfl
@[simp] theorem State.pc_resultThenFlag (x : Reg) (r : Byte) (c : Bool) : (State.resultThenFlag s x r c).pc = s.pc := rfl
@[simp] theorem State.sp_resultThenFlag (x : Reg) (r : Byte) (c : Bool) : (State.resultThenFlag s x r c).sp = s.sp := rfl
@[simp] theorem State.stack_resultThenFlag (x : Reg) (r : Byte) (c : Bool) : (State.resultThenFlag s x r c).stack = s.stack := rfl
@[simp] theorem State.dt_resultThenFlag (x : Reg) (r : Byte) (c : Bool) : (State.resultThenFlag s x r c).dt = s.dt := rfl
@[simp] theorem State.st_resultThenFlag (x : Reg) (r : Byte) (c : Bool) : (State.resultThenFlag s x r c).st = s.st := rfl
@[simp] theorem State.fb_resultThenFlag (x : Reg) (r : Byte) (c : Bool) : (State.resultThenFlag s x r c).fb = s.fb := rfl
@[simp] theorem State.key_resultThenFlag (x : Reg) (r : Byte) (c : Bool) : (State.resultThenFlag s x r c).key = s.key := rfl
@[simp] theorem State.mem_resultThenFlag (x : Reg) (r : Byte) (c : Bool) : (State.resultThenFlag s x r c).mem = s.mem := rfl
@[simp] theorem State.fault_resultThenFlag (x : Reg) (r : Byte) (c : Bool) : (State.resultThenFlag s x r c).fault = s.fault := rfl
@[simp] theorem State.draws_resultThenFlag (x : Reg) (r : Byte) (c : Bool) : (State.resultThenFlag s x r c).draws = s.draws := rfl
@[simp] theorem State.agenda_resultThenFlag (x : Reg) (r : Byte) (c : Bool) : (State.resultThenFlag s x r c).agenda = s.agenda := rfl
@[simp] theorem State.byteAt_resultThenFlag (x : Reg) (r : Byte) (c : Bool) (q : Nat) :
    State.byteAt (State.resultThenFlag s x r c) q = State.byteAt s q := rfl
@[simp] theorem State.keyDown_resultThenFlag (x : Reg) (r : Byte) (c : Bool) (q : Key) :
    State.keyDown (State.resultThenFlag s x r c) q = State.keyDown s q := rfl
@[simp] theorem State.fetch_resultThenFlag (x : Reg) (r : Byte) (c : Bool) : State.fetch (State.resultThenFlag s x r c) = State.fetch s := rfl

/-! ### `State.flagThenResult` -/

@[simp] theorem State.i_flagThenResult (x : Reg) (r : Byte) (c : Bool) : (State.flagThenResult s x r c).i = s.i := rfl
@[simp] theorem State.pc_flagThenResult (x : Reg) (r : Byte) (c : Bool) : (State.flagThenResult s x r c).pc = s.pc := rfl
@[simp] theorem State.sp_flagThenResult (x : Reg) (r : Byte) (c : Bool) : (State.flagThenResult s x r c).sp = s.sp := rfl
@[simp] theorem State.stack_flagThenResult (x : Reg) (r : Byte) (c : Bool) : (State.flagThenResult s x r c).stack = s.stack := rfl
@[simp] theorem State.dt_flagThenResult (x : Reg) (r : Byte) (c : Bool) : (State.flagThenResult s x r c).dt = s.dt := rfl
@[simp] theorem State.st_flagThenResult (x : Reg) (r : Byte) (c : Bool) : (State.flagThenResult s x r c).st = s.st := rfl
@[simp] theorem State.fb_flagThenResult (x : Reg) (r : Byte) (c : Bool) : (State.flagThenResult s x r c).fb = s.fb := rfl
@[simp] theorem State.key_flagThenResult (x : Reg) (r : Byte) (c : Bool) : (State.flagThenResult s x r c).key = s.key := rfl
@[simp] theorem State.mem_flagThenResult (x : Reg) (r : Byte) (c : Bool) : (State.flagThenResult s x r c).mem = s.mem := rfl
@[simp] theorem State.fault_flagThenResult (x : Reg) (r : Byte) (c : Bool) : (State.flagThenResult s x r c).fault = s.fault := rfl
@[simp] theorem State.draws_flagThenResult (x : Reg) (r : Byte) (c : Bool) : (State.flagThenResult s x r c).draws = s.draws := rfl
@[simp] theorem State.agenda_flagThenResult (x : Reg) (r : Byte) (c : Bool) : (State.flagThenResult s x r c).agenda = s.agenda := rfl
@[simp] theorem State.byteAt_flagThenResult (x : Reg) (r : Byte) (c : Bool) (q : Nat) :
    State.byteAt (State.flagThenResult s x r c) q = State.byteAt s q := rfl
@[simp] theorem State.keyDown_flagThenResult (x : Reg) (r : Byte) (c : Bool) (q : Key) :
    State.keyDown (State.flagThenResult s x r c) q = State.keyDown s q := rfl
@[simp] theorem State.fetch_flagThenResult (x : Reg) (r : Byte) (c : Bool) : State.fetch (State.flagThenResult s x r c) = State.fetch s := rfl

/-! ### `State.raise` -/

@[simp] theorem State.v_raise (f : FaultKind) (op : Word) (a : Nat) : (State.raise s f op a).v = s.v := rfl
@[simp] theorem State.i_raise (f : FaultKind) (op : Word) (a : Nat) : (State.raise s f op a).i = s.i := rfl
@[simp] theorem State.pc_raise (f : FaultKind) (op : Word) (a : Nat) : (State.raise s f op a).pc = s.pc := rfl
@[simp] theorem State.sp_raise (f : FaultKind) (op : Word) (a : Nat) : (State.raise s f op a).sp = s.sp := rfl
@[simp] theorem State.stack_raise (f : FaultKind) (op : Word) (a : Nat) : (State.raise s f op a).stack = s.stack := rfl
@[simp] theorem State.dt_raise (f : FaultKind) (op : Word) (a : Nat) : (State.raise s f op a).dt = s.dt := rfl
@[simp] theorem State.st_raise (f : FaultKind) (op : Word) (a : Nat) : (State.raise s f op a).st = s.st := rfl
@[simp] theorem State.fb_raise (f : FaultKind) (op : Word) (a : Nat) : (State.raise s f op a).fb = s.fb := rfl
@[simp] theorem State.key_raise (f : FaultKind) (op : Word) (a : Nat) : (State.raise s f op a).key = s.key := rfl
@[simp] theorem State.mem_raise (f : FaultKind) (op : Word) (a : Nat) : (State.raise s f op a).mem = s.mem := rfl
@[simp] theorem State.fault_raise (f : FaultKind) (op : Word) (a : Nat) : (State.raise s f op a).fault = ⟨f, s.pc, op, true, BitVec.ofNat 17 a⟩ := rfl
@[simp] theorem State.draws_raise (f : FaultKind) (op : Word) (a : Nat) : (State.raise s f op a).draws = s.draws := rfl
@[simp] theorem State.agenda_raise (f : FaultKind) (op : Word) (a : Nat) : (State.raise s f op a).agenda = s.agenda := rfl
@[simp] theorem State.readV_raise (f : FaultKind) (op : Word) (a : Nat) (q : Reg) :
    State.readV (State.raise s f op a) q = State.readV s q := rfl
@[simp] theorem State.byteAt_raise (f : FaultKind) (op : Word) (a : Nat) (q : Nat) :
    State.byteAt (State.raise s f op a) q = State.byteAt s q := rfl
@[simp] theorem State.keyDown_raise (f : FaultKind) (op : Word) (a : Nat) (q : Key) :
    State.keyDown (State.raise s f op a) q = State.keyDown s q := rfl
@[simp] theorem State.fetch_raise (f : FaultKind) (op : Word) (a : Nat) : State.fetch (State.raise s f op a) = State.fetch s := rfl

/-! ### `State.raiseAddress` -/

@[simp] theorem State.v_raiseAddress (ins : Instr) (a : Nat) : (State.raiseAddress s ins a).v = s.v := rfl
@[simp] theorem State.i_raiseAddress (ins : Instr) (a : Nat) : (State.raiseAddress s ins a).i = s.i := rfl
@[simp] theorem State.pc_raiseAddress (ins : Instr) (a : Nat) : (State.raiseAddress s ins a).pc = s.pc := rfl
@[simp] theorem State.sp_raiseAddress (ins : Instr) (a : Nat) : (State.raiseAddress s ins a).sp = s.sp := rfl
@[simp] theorem State.stack_raiseAddress (ins : Instr) (a : Nat) : (State.raiseAddress s ins a).stack = s.stack := rfl
@[simp] theorem State.dt_raiseAddress (ins : Instr) (a : Nat) : (State.raiseAddress s ins a).dt = s.dt := rfl
@[simp] theorem State.st_raiseAddress (ins : Instr) (a : Nat) : (State.raiseAddress s ins a).st = s.st := rfl
@[simp] theorem State.fb_raiseAddress (ins : Instr) (a : Nat) : (State.raiseAddress s ins a).fb = s.fb := rfl
@[simp] theorem State.key_raiseAddress (ins : Instr) (a : Nat) : (State.raiseAddress s ins a).key = s.key := rfl
@[simp] theorem State.mem_raiseAddress (ins : Instr) (a : Nat) : (State.raiseAddress s ins a).mem = s.mem := rfl
@[simp] theorem State.fault_raiseAddress (ins : Instr) (a : Nat) : (State.raiseAddress s ins a).fault = ⟨.addressOutOfRange, s.pc, encode ins, true, BitVec.ofNat 17 a⟩ := rfl
@[simp] theorem State.draws_raiseAddress (ins : Instr) (a : Nat) : (State.raiseAddress s ins a).draws = s.draws := rfl
@[simp] theorem State.agenda_raiseAddress (ins : Instr) (a : Nat) : (State.raiseAddress s ins a).agenda = s.agenda := rfl
@[simp] theorem State.readV_raiseAddress (ins : Instr) (a : Nat) (q : Reg) :
    State.readV (State.raiseAddress s ins a) q = State.readV s q := rfl
@[simp] theorem State.byteAt_raiseAddress (ins : Instr) (a : Nat) (q : Nat) :
    State.byteAt (State.raiseAddress s ins a) q = State.byteAt s q := rfl
@[simp] theorem State.keyDown_raiseAddress (ins : Instr) (a : Nat) (q : Key) :
    State.keyDown (State.raiseAddress s ins a) q = State.keyDown s q := rfl
@[simp] theorem State.fetch_raiseAddress (ins : Instr) (a : Nat) : State.fetch (State.raiseAddress s ins a) = State.fetch s := rfl

/-! ### `State.raiseFetch` -/

@[simp] theorem State.v_raiseFetch (a : Nat) : (State.raiseFetch s a).v = s.v := rfl
@[simp] theorem State.i_raiseFetch (a : Nat) : (State.raiseFetch s a).i = s.i := rfl
@[simp] theorem State.pc_raiseFetch (a : Nat) : (State.raiseFetch s a).pc = s.pc := rfl
@[simp] theorem State.sp_raiseFetch (a : Nat) : (State.raiseFetch s a).sp = s.sp := rfl
@[simp] theorem State.stack_raiseFetch (a : Nat) : (State.raiseFetch s a).stack = s.stack := rfl
@[simp] theorem State.dt_raiseFetch (a : Nat) : (State.raiseFetch s a).dt = s.dt := rfl
@[simp] theorem State.st_raiseFetch (a : Nat) : (State.raiseFetch s a).st = s.st := rfl
@[simp] theorem State.fb_raiseFetch (a : Nat) : (State.raiseFetch s a).fb = s.fb := rfl
@[simp] theorem State.key_raiseFetch (a : Nat) : (State.raiseFetch s a).key = s.key := rfl
@[simp] theorem State.mem_raiseFetch (a : Nat) : (State.raiseFetch s a).mem = s.mem := rfl
@[simp] theorem State.fault_raiseFetch (a : Nat) : (State.raiseFetch s a).fault = ⟨.addressOutOfRange, s.pc, Config.fetchFaultOpcode s.draws, false, BitVec.ofNat 17 a⟩ := rfl
@[simp] theorem State.draws_raiseFetch (a : Nat) : (State.raiseFetch s a).draws = s.draws + 1 := rfl
@[simp] theorem State.agenda_raiseFetch (a : Nat) : (State.raiseFetch s a).agenda = s.agenda := rfl
@[simp] theorem State.readV_raiseFetch (a : Nat) (q : Reg) :
    State.readV (State.raiseFetch s a) q = State.readV s q := rfl
@[simp] theorem State.byteAt_raiseFetch (a : Nat) (q : Nat) :
    State.byteAt (State.raiseFetch s a) q = State.byteAt s q := rfl
@[simp] theorem State.keyDown_raiseFetch (a : Nat) (q : Key) :
    State.keyDown (State.raiseFetch s a) q = State.keyDown s q := rfl
@[simp] theorem State.fetch_raiseFetch (a : Nat) : State.fetch (State.raiseFetch s a) = State.fetch s := rfl

end Sys2Proof.Machine
end

