-- ==== Sys2Proof/Laws/Memory.lean ====
section
/-! SUPPORT. Memory: what a read gives after each operation, that every operation keeps the canonical form, and one lemma
each for `MemRead` and `MemWrite` that says everything they can answer (20_memory.md R62, R63). -/

namespace Sys2Proof.Machine

/-! ### Reading after dropping, placing, writing -/

theorem Memory.read_drop (m : Memory) (a c : Nat) :
    Memory.read (Memory.drop m a) c = if c = a then Config.unwrittenByte else Memory.read m c := by
  induction m with
  | nil => simp [Memory.drop, Memory.read]
  | cons d m ih =>
    have ih' : Memory.read (List.filter (fun c => c.1 != a) m) c =
        if c = a then Config.unwrittenByte else Memory.read m c := ih
    by_cases hd : d.1 = a
    · simp only [Memory.drop, List.filter_cons, hd, bne_self_eq_false, Bool.false_eq_true, if_false, ih',
        Memory.read]
      by_cases hc : c = a <;> simp [hc]
    · have hb : (d.1 != a) = true := by simpa using hd
      simp only [Memory.drop, List.filter_cons, hb, if_true, Memory.read, ih']
      by_cases hc : c = d.1
      · subst hc; simp [hd]
      · simp [hc]

theorem Memory.read_place (m : Memory) (a : Nat) (b : Byte) (c : Nat) :
    Memory.read (Memory.place (Memory.drop m a) a b) c = if c = a then b else Memory.read (Memory.drop m a) c := by
  have key : ∀ l : Memory, (∀ d ∈ l, d.1 ≠ a) →
      Memory.read (Memory.place l a b) c = if c = a then b else Memory.read l c := by
    intro l
    induction l with
    | nil => intro _; simp [Memory.place, Memory.read]
    | cons d l ih =>
      intro h
      have hd : d.1 ≠ a := h d (by simp)
      have ih' := ih fun e he => h e (by simp [he])
      simp only [Memory.place]
      split
      · rfl
      · simp only [Memory.read, ih']
        by_cases hc : c = a
        · subst hc; simp [hd.symm]
        · simp [hc]
  exact key _ fun d hd => by
    have := (List.mem_filter.mp hd).2
    simpa using this

/-- A read after a write: the byte written at its address, what was there elsewhere. -/
theorem Memory.read_write (m : Memory) (a : Nat) (b : Byte) (c : Nat) :
    Memory.read (Memory.write m a b) c = if c = a then b else Memory.read m c := by
  unfold Memory.write
  split
  · rename_i h; rw [Memory.read_drop, h]
  · rw [Memory.read_place, Memory.read_drop]; split <;> rfl

/-- A read after several bytes are written. -/
theorem Memory.read_writeAll (bs : List Byte) (m : Memory) (a c : Nat) :
    Memory.read (Memory.writeAll m a bs) c =
      if h : a ≤ c ∧ c - a < bs.length then bs[c - a]'h.2 else Memory.read m c := by
  induction bs generalizing m a with
  | nil => simp [Memory.writeAll]
  | cons b bs ih =>
    rw [Memory.writeAll, ih]
    by_cases h1 : a + 1 ≤ c ∧ c - (a + 1) < bs.length
    · have h2 : a ≤ c ∧ c - a < (b :: bs).length := by simp; omega
      have h3 : c - a = (c - (a + 1)) + 1 := by omega
      rw [dif_pos h1, dif_pos h2]
      simp only [h3, List.getElem_cons_succ]
    · rw [dif_neg h1, Memory.read_write]
      by_cases hc : c = a
      · subst hc
        have h2 : c ≤ c ∧ c - c < (b :: bs).length := by simp
        rw [dif_pos h2]; simp
      · have h2 : ¬(a ≤ c ∧ c - a < (b :: bs).length) := by simp at h1 ⊢; omega
        rw [dif_neg h2, if_neg hc]

@[simp] theorem Memory.length_readAll (m : Memory) (a n : Nat) : (Memory.readAll m a n).length = n := by
  simp [Memory.readAll]

theorem Memory.getElem?_readAll (m : Memory) (a n k : Nat) (h : k < n) :
    (Memory.readAll m a n)[k]? = some (Memory.read m (a + k)) := by
  simp [Memory.readAll, h]

/-! ### The canonical form is kept -/

theorem Memory.wf_drop {m : Memory} (h : Memory.wf m) (a : Nat) : Memory.wf (Memory.drop m a) :=
  ⟨h.1.filter _, fun c hc => h.2 c (List.mem_filter.mp hc).1⟩

theorem Memory.mem_place {l : Memory} {a : Nat} {b : Byte} {d : Host.Cell} (h : d ∈ Memory.place l a b) :
    d = (a, b) ∨ d ∈ l := by
  induction l with
  | nil => simpa [Memory.place] using h
  | cons e l ih =>
    simp only [Memory.place] at h
    split at h
    · simpa using h
    · rcases List.mem_cons.mp h with h | h
      · simp [h]
      · rcases ih h with h | h <;> simp [h]

theorem Memory.wf_place {l : Memory} {a : Nat} {b : Byte} (h : Memory.wf l) (hl : ∀ d ∈ l, d.1 ≠ a)
    (ha : a < Config.memSize) (hb : b ≠ Config.unwrittenByte) : Memory.wf (Memory.place l a b) := by
  refine ⟨?_, fun d hd => ?_⟩
  · have hp := h.1
    clear h
    induction l with
    | nil => simp [Memory.place]
    | cons e l ih =>
      have he := (List.pairwise_cons.mp hp).1
      have hne : e.1 ≠ a := hl e (by simp)
      simp only [Memory.place]
      split
      · rename_i hlt
        refine List.pairwise_cons.mpr ⟨fun d hd => ?_, hp⟩
        rcases List.mem_cons.mp hd with rfl | hd
        · exact hlt
        · exact Nat.lt_trans hlt (he d hd)
      · refine List.pairwise_cons.mpr ⟨fun d hd => ?_, ih (fun d hd => hl d (by simp [hd])) (List.pairwise_cons.mp hp).2⟩
        rcases Memory.mem_place hd with rfl | hd
        · simp only; omega
        · exact he d hd
  · rcases Memory.mem_place hd with rfl | hd
    · exact ⟨ha, hb⟩
    · exact h.2 d hd

/-- One byte written inside memory keeps the canonical form. -/
theorem Memory.wf_write {m : Memory} (h : Memory.wf m) {a : Nat} (ha : a < Config.memSize) (b : Byte) :
    Memory.wf (Memory.write m a b) := by
  unfold Memory.write
  split
  · exact Memory.wf_drop h a
  · exact Memory.wf_place (Memory.wf_drop h a)
      (fun d hd => by simpa using (List.mem_filter.mp hd).2) ha ‹_›

/-- Bytes written inside memory keep the canonical form. -/
theorem Memory.wf_writeAll (bs : List Byte) {m : Memory} (h : Memory.wf m) {a : Nat}
    (ha : a + bs.length ≤ Config.memSize) : Memory.wf (Memory.writeAll m a bs) := by
  induction bs generalizing m a with
  | nil => exact h
  | cons b bs ih =>
    simp only [List.length_cons] at ha
    exact ih (Memory.wf_write h (by omega) b) (by omega)

theorem Memory.wf_nil : Memory.wf [] := ⟨List.Pairwise.nil, fun _ h => absurd h List.not_mem_nil⟩

/-- The image a `RESET` is followed by keeps the canonical form. -/
theorem Memory.wf_image (image : List (Addr12 × Byte)) {m : Memory} (h : Memory.wf m) :
    Memory.wf (image.foldl (fun m p => Memory.write m p.1.toNat p.2) m) := by
  induction image generalizing m with
  | nil => exact h
  | cons p image ih => exact ih (Memory.wf_write h p.1.isLt p.2)

/-! ### `MemRead` and `MemWrite` -/

theorem inRange_iff (a n : Nat) : InRange a n = true ↔ n = 0 ∨ a + n ≤ Config.memSize := by
  simp [InRange]

/-- Everything `MemRead` can answer (R62). -/
theorem State.memRead_cases (s : State) (a n : Nat) :
    ((n = 0 ∨ a + n ≤ Config.memSize) ∧ State.memRead s a n = .ok (Memory.readAll s.mem a n)) ∨
    (n ≠ 0 ∧ Config.memSize < a + n ∧ State.memRead s a n = .error (lowestOutside a)) := by
  unfold State.memRead
  by_cases h : InRange a n = true
  · exact .inl ⟨(inRange_iff a n).mp h, by simp [h]⟩
  · have := (inRange_iff a n).not.mp h
    refine .inr ⟨?_, ?_, by simp [h]⟩ <;> omega

/-- Everything `MemWrite` can answer (R63). -/
theorem State.memWrite_cases (s : State) (a : Nat) (bs : List Byte) :
    ((bs.length = 0 ∨ a + bs.length ≤ Config.memSize) ∧
      State.memWrite s a bs = .ok { s with mem := Memory.writeAll s.mem a bs }) ∨
    (bs.length ≠ 0 ∧ Config.memSize < a + bs.length ∧ State.memWrite s a bs = .error (lowestOutside a)) := by
  unfold State.memWrite
  by_cases h : InRange a bs.length = true
  · exact .inl ⟨(inRange_iff a _).mp h, by simp [h]⟩
  · have := (inRange_iff a bs.length).not.mp h
    refine .inr ⟨?_, ?_, by simp [h]⟩ <;> omega

/-- Everything a fetch can answer (R65, R66). -/
theorem State.fetch_cases (s : State) :
    (s.pc.toNat + 2 ≤ Config.memSize ∧
      State.fetch s = .ok (wordOfBytes (State.byteAt s s.pc.toNat) (State.byteAt s (s.pc.toNat + 1)))) ∨
    (Config.memSize < s.pc.toNat + 2 ∧ State.fetch s = .error (lowestOutside s.pc.toNat)) := by
  unfold State.fetch
  rcases State.memRead_cases s s.pc.toNat 2 with ⟨h, e⟩ | ⟨_, h, e⟩
  · exact .inl ⟨by omega, by simp [e]⟩
  · exact .inr ⟨h, by simp [e]⟩

end Sys2Proof.Machine
end

