-- ==== Sys2Proof/Laws/Display.lean ====
section
/-! SUPPORT. The framebuffer: what flipping one pixel does to each pixel, what the drawing loop does to a list of pixels
that fall on different cells, and that the pixels of a sprite do (43_display.md R191). -/

namespace Sys2Proof.Machine

/-- Two coordinate pairs fall on one cell of the grid (10_state.md R31). -/
abbrev SameCell (p q : Nat × Nat) : Prop :=
  p.1 % Config.fbWidth = q.1 % Config.fbWidth ∧ p.2 % Config.fbHeight = q.2 % Config.fbHeight

theorem Framebuffer.get_flip (fb : Framebuffer) (x y px py : Nat) :
    Framebuffer.get (Framebuffer.flip fb x y) px py =
      if SameCell (x, y) (px, py) then !Framebuffer.get fb px py else Framebuffer.get fb px py := by
  simp only [Framebuffer.get, Framebuffer.flip, SameCell, Vector.getElem_set]
  by_cases hx : x % Config.fbWidth = px % Config.fbWidth
  · by_cases hy : y % Config.fbHeight = py % Config.fbHeight
    · simp [hx, hy]
    · simp [hx, hy]
  · simp [hx]

@[simp] theorem Framebuffer.get_blank (px py : Nat) : Framebuffer.get Framebuffer.blank px py = false := by
  simp [Framebuffer.get, Framebuffer.blank]

/-- Coordinates wrap before a pixel is read (R31). -/
theorem Framebuffer.get_mod (fb : Framebuffer) (px py : Nat) :
    Framebuffer.get fb (px % Config.fbWidth) (py % Config.fbHeight) = Framebuffer.get fb px py := by
  simp [Framebuffer.get]

/-- Two framebuffers that agree on every pixel of the grid are equal. -/
theorem Framebuffer.ext_get {f g : Framebuffer}
    (h : ∀ px < Config.fbWidth, ∀ py < Config.fbHeight, Framebuffer.get f px py = Framebuffer.get g px py) :
    f = g := by
  apply Vector.ext
  intro px hx
  apply Vector.ext
  intro py hy
  have := h px hx py hy
  simpa [Framebuffer.get, Nat.mod_eq_of_lt hx, Nat.mod_eq_of_lt hy] using this

/-- Pixels on different cells, drawn one after the other: each cell among them is flipped once, no other changes. -/
theorem get_blit (ps : List (Nat × Nat)) (fb : Framebuffer) (hit : Bool) (px py : Nat)
    (hp : ps.Pairwise fun p q => ¬SameCell p q) :
    Framebuffer.get (blit ps (fb, hit)).1 px py =
      (Framebuffer.get fb px py ^^ decide (∃ p ∈ ps, SameCell p (px, py))) := by
  induction ps generalizing fb hit with
  | nil => simp [blit]
  | cons p ps ih =>
    obtain ⟨h1, h2⟩ := List.pairwise_cons.mp hp
    simp only [blit]
    rw [ih _ _ h2, Framebuffer.get_flip]
    by_cases hc : SameCell p (px, py)
    · have hn : ¬∃ q ∈ ps, SameCell q (px, py) := by
        rintro ⟨q, hq, hqc⟩
        exact h1 q hq ⟨hc.1.trans hqc.1.symm, hc.2.trans hqc.2.symm⟩
      have hy : ∃ q ∈ p :: ps, SameCell q (px, py) := ⟨p, by simp, hc⟩
      rw [if_pos (by exact hc), decide_eq_false hn, decide_eq_true hy]
      simp
    · have : (∃ q ∈ p :: ps, SameCell q (px, py)) ↔ ∃ q ∈ ps, SameCell q (px, py) := by
        simp [hc]
      rw [if_neg (by exact hc)]
      simp only [this]

/-- Pixels on different cells, drawn one after the other: a collision is one of them being 1 before the draw. -/
theorem hit_blit (ps : List (Nat × Nat)) (fb : Framebuffer) (hit : Bool)
    (hp : ps.Pairwise fun p q => ¬SameCell p q) :
    (blit ps (fb, hit)).2 = (hit || ps.any fun p => Framebuffer.get fb p.1 p.2) := by
  induction ps generalizing fb hit with
  | nil => simp [blit]
  | cons p ps ih =>
    obtain ⟨h1, h2⟩ := List.pairwise_cons.mp hp
    simp only [blit]
    rw [ih _ _ h2]
    have : (ps.any fun q => Framebuffer.get (Framebuffer.flip fb p.1 p.2) q.1 q.2) =
        ps.any fun q => Framebuffer.get fb q.1 q.2 := by
      rw [Bool.eq_iff_iff]
      simp only [List.any_eq_true]
      refine exists_congr fun q => and_congr_right fun hq => ?_
      rw [Framebuffer.get_flip, if_neg (h1 q hq)]
    simp [this, Bool.or_assoc]

theorem mem_setColumns (b : Byte) (c : Nat) : c ∈ setColumns b ↔ c < 8 ∧ b.getLsbD (7 - c) = true := by
  simp [setColumns]

/-- A pixel of a sprite is column c of row k of its bytes, the bit there being 1 (R191). -/
theorem mem_spritePixels (bs : List Byte) (x0 y0 r : Nat) (p : Nat × Nat) :
    p ∈ spritePixels x0 y0 r bs ↔
      ∃ k c, ∃ h : k < bs.length, c < 8 ∧ (bs[k]'h).getLsbD (7 - c) = true ∧ p = (x0 + c, y0 + (r + k)) := by
  induction bs generalizing r with
  | nil => simp [spritePixels]
  | cons b bs ih =>
    rw [spritePixels, List.mem_append, ih]
    constructor
    · rintro (h | ⟨k, c, hk, hc, hb, rfl⟩)
      · obtain ⟨c, hc, rfl⟩ := List.mem_map.mp h
        obtain ⟨hc, hb⟩ := (mem_setColumns b c).mp hc
        exact ⟨0, c, by simp, hc, by simpa using hb, by simp⟩
      · exact ⟨k + 1, c, by simp; omega, hc, by simpa using hb, by simp; omega⟩
    · rintro ⟨k, c, hk, hc, hb, rfl⟩
      cases k with
      | zero =>
        exact .inl (List.mem_map.mpr ⟨c, (mem_setColumns b c).mpr ⟨hc, by simpa using hb⟩, by simp⟩)
      | succ k =>
        exact .inr ⟨k, c, by simp at hk; omega, hc, by simpa using hb, by simp; omega⟩

/-- At most 32 rows of 8 columns: no two pixels of a sprite fall on one cell (R191). -/
theorem pairwise_spritePixels (bs : List Byte) (x0 y0 r : Nat) (h : bs.length ≤ Config.fbHeight) :
    (spritePixels x0 y0 r bs).Pairwise fun p q => ¬SameCell p q := by
  induction bs generalizing r with
  | nil => simp [spritePixels]
  | cons b bs ih =>
    simp only [List.length_cons] at h
    rw [spritePixels, List.pairwise_append]
    refine ⟨?_, ih _ (by omega), ?_⟩
    · rw [List.pairwise_map]
      have hs : (setColumns b).Pairwise (· < ·) := List.Pairwise.filter _ List.pairwise_lt_range
      refine hs.imp_of_mem fun {c d} hc hd hlt => ?_
      have hc := ((mem_setColumns b c).mp hc).1
      have hd := ((mem_setColumns b d).mp hd).1
      rintro ⟨hx, _⟩
      simp only [Config.fbWidth] at hx
      omega
    · intro p hp q hq
      obtain ⟨c, _, rfl⟩ := List.mem_map.mp hp
      obtain ⟨k, d, hk, _, _, rfl⟩ := (mem_spritePixels _ _ _ _ _).mp hq
      rintro ⟨_, hy⟩
      simp only [Config.fbHeight] at hy h
      omega

end Sys2Proof.Machine
end

