-- ==== Sys2Proof/Laws/PerInstr.lean ====
section
/-! SUPPORT. Statements made of every instruction as syntax, one lemma per constructor. The family EncodedInItsRow: the
encoder's word of an instruction matches the instruction's row of the opcode map (30_encoding.md R96), the row being one
of the map's. -/

namespace Sys2Proof.Laws

/-- Only the family is under the mask of a row of format `A`. -/
theorem maskA (f : BitVec 4) (a : Addr12) : encodeA f a &&& 0xF000 = f ++ (0 : BitVec 12) := by
  apply BitVec.eq_of_getLsbD_eq
  intro k hk
  simp only [encodeA, BitVec.getLsbD_and, BitVec.getLsbD_append]
  interval_cases k <;> simp

/-- Only the family is under the mask of a row of format `XK`. -/
theorem maskXK (f : BitVec 4) (x : Reg) (b : Byte) : encodeXK f x b &&& 0xF000 = f ++ (0 : BitVec 12) := by
  apply BitVec.eq_of_getLsbD_eq
  intro k hk
  simp only [encodeXK, BitVec.getLsbD_and, BitVec.getLsbD_append]
  interval_cases k <;> simp

/-- The family and the low byte are under the mask of a row of format `X`. -/
theorem maskX (f : BitVec 4) (x : Reg) (b : Byte) : encodeXK f x b &&& 0xF0FF = f ++ (0 : BitVec 4) ++ b := by
  apply BitVec.eq_of_getLsbD_eq
  intro k hk
  simp only [encodeXK, BitVec.getLsbD_and, BitVec.getLsbD_append]
  interval_cases k <;> simp

/-- The family and the low nibble are under the mask of a row of format `XY`. -/
theorem maskXY (f : BitVec 4) (x y : Reg) (n : BitVec 4) :
    encodeXYN f x y n &&& 0xF00F = f ++ (0 : BitVec 8) ++ n := by
  apply BitVec.eq_of_getLsbD_eq
  intro k hk
  simp only [encodeXYN, BitVec.getLsbD_and, BitVec.getLsbD_append]
  interval_cases k <;> simp

/-- Only the family is under the mask of a row of format `XYN`. -/
theorem maskXYN (f : BitVec 4) (x y : Reg) (n : BitVec 4) :
    encodeXYN f x y n &&& 0xF000 = f ++ (0 : BitVec 12) := by
  apply BitVec.eq_of_getLsbD_eq
  intro k hk
  simp only [encodeXYN, BitVec.getLsbD_and, BitVec.getLsbD_append]
  interval_cases k <;> simp

/-- The word of the instruction matches the instruction's row, which is a row of the opcode map (R96). -/
def EncodedInItsRow.Statement (i : Instr) : Prop :=
  i.row ∈ opcodeMap ∧ i.row.matchesWord (encode i) = true

theorem EncodedInItsRow.cls : EncodedInItsRow.Statement .cls :=
  ⟨by decide, by decide⟩

theorem EncodedInItsRow.ret : EncodedInItsRow.Statement .ret :=
  ⟨by decide, by decide⟩

theorem EncodedInItsRow.jp (nnn : Addr12) : EncodedInItsRow.Statement (.jp nnn) :=
  ⟨by simp only [Instr.row]; decide, by simp only [Instr.row, OpcodeRow.matchesWord, encode, maskA]; rfl⟩

theorem EncodedInItsRow.call (nnn : Addr12) : EncodedInItsRow.Statement (.call nnn) :=
  ⟨by simp only [Instr.row]; decide, by simp only [Instr.row, OpcodeRow.matchesWord, encode, maskA]; rfl⟩

theorem EncodedInItsRow.seImm (x : Reg) (kk : Byte) : EncodedInItsRow.Statement (.seImm x kk) :=
  ⟨by simp only [Instr.row]; decide, by simp only [Instr.row, OpcodeRow.matchesWord, encode, maskXK]; rfl⟩

theorem EncodedInItsRow.sneImm (x : Reg) (kk : Byte) : EncodedInItsRow.Statement (.sneImm x kk) :=
  ⟨by simp only [Instr.row]; decide, by simp only [Instr.row, OpcodeRow.matchesWord, encode, maskXK]; rfl⟩

theorem EncodedInItsRow.seReg (x y : Reg) : EncodedInItsRow.Statement (.seReg x y) :=
  ⟨by simp only [Instr.row]; decide, by simp only [Instr.row, OpcodeRow.matchesWord, encode, maskXY]; rfl⟩

theorem EncodedInItsRow.ldImm (x : Reg) (kk : Byte) : EncodedInItsRow.Statement (.ldImm x kk) :=
  ⟨by simp only [Instr.row]; decide, by simp only [Instr.row, OpcodeRow.matchesWord, encode, maskXK]; rfl⟩

theorem EncodedInItsRow.addImm (x : Reg) (kk : Byte) : EncodedInItsRow.Statement (.addImm x kk) :=
  ⟨by simp only [Instr.row]; decide, by simp only [Instr.row, OpcodeRow.matchesWord, encode, maskXK]; rfl⟩

theorem EncodedInItsRow.ldReg (x y : Reg) : EncodedInItsRow.Statement (.ldReg x y) :=
  ⟨by simp only [Instr.row]; decide, by simp only [Instr.row, OpcodeRow.matchesWord, encode, maskXY]; rfl⟩

theorem EncodedInItsRow.orReg (x y : Reg) : EncodedInItsRow.Statement (.orReg x y) :=
  ⟨by simp only [Instr.row]; decide, by simp only [Instr.row, OpcodeRow.matchesWord, encode, maskXY]; rfl⟩

theorem EncodedInItsRow.andReg (x y : Reg) : EncodedInItsRow.Statement (.andReg x y) :=
  ⟨by simp only [Instr.row]; decide, by simp only [Instr.row, OpcodeRow.matchesWord, encode, maskXY]; rfl⟩

theorem EncodedInItsRow.xorReg (x y : Reg) : EncodedInItsRow.Statement (.xorReg x y) :=
  ⟨by simp only [Instr.row]; decide, by simp only [Instr.row, OpcodeRow.matchesWord, encode, maskXY]; rfl⟩

theorem EncodedInItsRow.addReg (x y : Reg) : EncodedInItsRow.Statement (.addReg x y) :=
  ⟨by simp only [Instr.row]; decide, by simp only [Instr.row, OpcodeRow.matchesWord, encode, maskXY]; rfl⟩

theorem EncodedInItsRow.subReg (x y : Reg) : EncodedInItsRow.Statement (.subReg x y) :=
  ⟨by simp only [Instr.row]; decide, by simp only [Instr.row, OpcodeRow.matchesWord, encode, maskXY]; rfl⟩

theorem EncodedInItsRow.shr (x y : Reg) : EncodedInItsRow.Statement (.shr x y) :=
  ⟨by simp only [Instr.row]; decide, by simp only [Instr.row, OpcodeRow.matchesWord, encode, maskXY]; rfl⟩

theorem EncodedInItsRow.subnReg (x y : Reg) : EncodedInItsRow.Statement (.subnReg x y) :=
  ⟨by simp only [Instr.row]; decide, by simp only [Instr.row, OpcodeRow.matchesWord, encode, maskXY]; rfl⟩

theorem EncodedInItsRow.shl (x y : Reg) : EncodedInItsRow.Statement (.shl x y) :=
  ⟨by simp only [Instr.row]; decide, by simp only [Instr.row, OpcodeRow.matchesWord, encode, maskXY]; rfl⟩

theorem EncodedInItsRow.sneReg (x y : Reg) : EncodedInItsRow.Statement (.sneReg x y) :=
  ⟨by simp only [Instr.row]; decide, by simp only [Instr.row, OpcodeRow.matchesWord, encode, maskXY]; rfl⟩

theorem EncodedInItsRow.ldI (nnn : Addr12) : EncodedInItsRow.Statement (.ldI nnn) :=
  ⟨by simp only [Instr.row]; decide, by simp only [Instr.row, OpcodeRow.matchesWord, encode, maskA]; rfl⟩

theorem EncodedInItsRow.jpV0 (nnn : Addr12) : EncodedInItsRow.Statement (.jpV0 nnn) :=
  ⟨by simp only [Instr.row]; decide, by simp only [Instr.row, OpcodeRow.matchesWord, encode, maskA]; rfl⟩

theorem EncodedInItsRow.rnd (x : Reg) (kk : Byte) : EncodedInItsRow.Statement (.rnd x kk) :=
  ⟨by simp only [Instr.row]; decide, by simp only [Instr.row, OpcodeRow.matchesWord, encode, maskXK]; rfl⟩

theorem EncodedInItsRow.drw (x y : Reg) (n : BitVec 4) : EncodedInItsRow.Statement (.drw x y n) :=
  ⟨by simp only [Instr.row]; decide, by simp only [Instr.row, OpcodeRow.matchesWord, encode, maskXYN]; rfl⟩

theorem EncodedInItsRow.skp (x : Reg) : EncodedInItsRow.Statement (.skp x) :=
  ⟨by simp only [Instr.row]; decide, by simp only [Instr.row, OpcodeRow.matchesWord, encode, maskX]; rfl⟩

theorem EncodedInItsRow.sknp (x : Reg) : EncodedInItsRow.Statement (.sknp x) :=
  ⟨by simp only [Instr.row]; decide, by simp only [Instr.row, OpcodeRow.matchesWord, encode, maskX]; rfl⟩

theorem EncodedInItsRow.ldVxDt (x : Reg) : EncodedInItsRow.Statement (.ldVxDt x) :=
  ⟨by simp only [Instr.row]; decide, by simp only [Instr.row, OpcodeRow.matchesWord, encode, maskX]; rfl⟩

theorem EncodedInItsRow.ldVxKey (x : Reg) : EncodedInItsRow.Statement (.ldVxKey x) :=
  ⟨by simp only [Instr.row]; decide, by simp only [Instr.row, OpcodeRow.matchesWord, encode, maskX]; rfl⟩

theorem EncodedInItsRow.ldDtVx (x : Reg) : EncodedInItsRow.Statement (.ldDtVx x) :=
  ⟨by simp only [Instr.row]; decide, by simp only [Instr.row, OpcodeRow.matchesWord, encode, maskX]; rfl⟩

theorem EncodedInItsRow.ldStVx (x : Reg) : EncodedInItsRow.Statement (.ldStVx x) :=
  ⟨by simp only [Instr.row]; decide, by simp only [Instr.row, OpcodeRow.matchesWord, encode, maskX]; rfl⟩

theorem EncodedInItsRow.addI (x : Reg) : EncodedInItsRow.Statement (.addI x) :=
  ⟨by simp only [Instr.row]; decide, by simp only [Instr.row, OpcodeRow.matchesWord, encode, maskX]; rfl⟩

theorem EncodedInItsRow.ldFont (x : Reg) : EncodedInItsRow.Statement (.ldFont x) :=
  ⟨by simp only [Instr.row]; decide, by simp only [Instr.row, OpcodeRow.matchesWord, encode, maskX]; rfl⟩

theorem EncodedInItsRow.ldBcd (x : Reg) : EncodedInItsRow.Statement (.ldBcd x) :=
  ⟨by simp only [Instr.row]; decide, by simp only [Instr.row, OpcodeRow.matchesWord, encode, maskX]; rfl⟩

theorem EncodedInItsRow.storeRegs (x : Reg) : EncodedInItsRow.Statement (.storeRegs x) :=
  ⟨by simp only [Instr.row]; decide, by simp only [Instr.row, OpcodeRow.matchesWord, encode, maskX]; rfl⟩

theorem EncodedInItsRow.loadRegs (x : Reg) : EncodedInItsRow.Statement (.loadRegs x) :=
  ⟨by simp only [Instr.row]; decide, by simp only [Instr.row, OpcodeRow.matchesWord, encode, maskX]; rfl⟩

end Sys2Proof.Laws
end

