-- ==== Sys2Proof/Laws/Registers.lean ====
section
/-! SUPPORT. Registers, the call stack, the input latch and the timers: one lemma per operation that says everything it
can do. -/

namespace Sys2Proof.Machine

variable (s : State)

/-! ### General registers (10_state.md R21) -/

theorem State.readV_setV (x : Reg) (b : Byte) (r : Reg) :
    State.readV (State.setV s x b) r = if r = x then b else State.readV s r := by
  simp only [State.readV, State.setV, Vector.getElem_set, BitVec.toNat_eq, eq_comm (a := x.toNat)]

theorem State.readV_setFlag (c : Bool) (r : Reg) :
    State.readV (State.setFlag s c) r = if r = VF then flagByte c else State.readV s r :=
  State.readV_setV s VF (flagByte c) r

/-- The result first and the flag second: with `x = F` the flag wins (R23). -/
theorem State.readV_resultThenFlag (x : Reg) (v : Byte) (c : Bool) (r : Reg) :
    State.readV (State.resultThenFlag s x v c) r =
      if r = VF then flagByte c else if r = x then v else State.readV s r := by
  rw [State.resultThenFlag, State.readV_setFlag, State.readV_setV]

/-- The flag first and the result second: with `x = F` the result wins (R23). -/
theorem State.readV_flagThenResult (x : Reg) (v : Byte) (c : Bool) (r : Reg) :
    State.readV (State.flagThenResult s x v c) r =
      if r = x then v else if r = VF then flagByte c else State.readV s r := by
  rw [State.flagThenResult, State.readV_setV, State.readV_setFlag]

theorem getElem_loadFrom (bs : List Byte) (k : Nat) (v : Vector Byte 16) (r : Nat) (hr : r < 16) :
    (loadFrom k bs v)[r] = if h : k ≤ r ∧ r - k < bs.length then bs[r - k]'h.2 else v[r] := by
  induction bs generalizing k v with
  | nil => simp [loadFrom]
  | cons b bs ih =>
    rw [loadFrom, ih]
    by_cases h1 : k + 1 ≤ r ∧ r - (k + 1) < bs.length
    · have h2 : k ≤ r ∧ r - k < (b :: bs).length := by simp; omega
      have h3 : r - k = (r - (k + 1)) + 1 := by omega
      rw [dif_pos h1, dif_pos h2]
      simp only [h3, List.getElem_cons_succ]
    · rw [dif_neg h1, Vector.getElem_setIfInBounds]
      by_cases hk : k = r
      · subst hk
        have h2 : k ≤ k ∧ k - k < (b :: bs).length := by simp
        rw [dif_pos h2]; simp
      · have h2 : ¬(k ≤ r ∧ r - k < (b :: bs).length) := by simp at h1 ⊢; omega
        rw [dif_neg h2, if_neg hk]

/-- Consecutive registers from 0 upward take the bytes, the others keep theirs (R176). -/
theorem State.readV_loadV (bs : List Byte) (r : Reg) :
    State.readV (State.loadV s bs) r = if h : r.toNat < bs.length then bs[r.toNat] else State.readV s r := by
  simp only [State.readV, State.loadV, getElem_loadFrom]
  simp

/-! ### The call stack (10_state.md R27 to R29) -/

/-- Everything a push can do. -/
theorem State.push_cases (w : Word) :
    (∃ h : s.sp.toNat + 1 < Config.stackEntries,
      State.push s w = .ok { s with stack := s.stack.set (s.sp.toNat + 1) w h, sp := s.sp + 1 }) ∨
    (Config.stackEntries ≤ s.sp.toNat + 1 ∧ State.push s w = .error (.noStackEntry s.sp)) := by
  unfold State.push
  by_cases h : s.sp.toNat + 1 < Config.stackEntries
  · exact .inl ⟨h, dif_pos h⟩
  · exact .inr ⟨by omega, dif_neg h⟩

/-- Everything a pop can do. -/
theorem State.pop_cases :
    (∃ h : s.sp.toNat < Config.stackEntries,
      State.pop s = .ok (s.stack[s.sp.toNat], { s with sp := s.sp - 1 })) ∨
    (Config.stackEntries ≤ s.sp.toNat ∧ State.pop s = .error (.noStackEntry s.sp)) := by
  unfold State.pop
  by_cases h : s.sp.toNat < Config.stackEntries
  · exact .inl ⟨h, dif_pos h⟩
  · exact .inr ⟨by omega, dif_neg h⟩

/-! ### The input latch (10_state.md R32, R45) -/

theorem State.keyDown_setKey (k : Key) (d : Bool) (j : Key) :
    State.keyDown (State.setKey s k d) j = if j = k then d else State.keyDown s j := by
  simp only [State.keyDown, State.setKey, Vector.getElem_set, BitVec.toNat_eq, eq_comm (a := k.toNat)]

theorem mem_allKeys (k : Key) : k ∈ allKeys := by
  simp only [allKeys, List.mem_map, List.mem_range]
  exact ⟨k.toNat, k.isLt, by simp⟩

/-- No key is down exactly when no lowest one is (44_timer_key.md R206). -/
theorem State.lowestKey_eq_none : State.lowestKey s = none ↔ ∀ k, State.keyDown s k = false := by
  simp only [State.lowestKey, List.find?_eq_none, Bool.not_eq_true]
  exact ⟨fun h k => h k (mem_allKeys k), fun h k _ => h k⟩

theorem pairwise_allKeys : allKeys.Pairwise (fun j k => j.toNat < k.toNat) := by decide

/-- The lowest key is down and every lower one is up (R206). -/
theorem State.lowestKey_eq_some {k : Key} :
    State.lowestKey s = some k ↔
      State.keyDown s k = true ∧ ∀ j : Key, j.toNat < k.toNat → State.keyDown s j = false := by
  have hp := pairwise_allKeys
  simp only [State.lowestKey]
  constructor
  · intro h
    obtain ⟨hk, as, bs, e, has⟩ := List.find?_eq_some_iff_append.mp h
    refine ⟨hk, fun j hj => ?_⟩
    have hm := mem_allKeys j
    rw [e] at hm hp
    rcases List.mem_append.mp hm with hm | hm
    · simpa using has j hm
    · exfalso
      rcases List.mem_cons.mp hm with rfl | hm
      · omega
      · have := (List.pairwise_cons.mp (List.pairwise_append.mp hp).2.1).1 j hm
        omega
  · rintro ⟨hk, hj⟩
    obtain ⟨as, bs, e⟩ := List.append_of_mem (mem_allKeys k)
    refine List.find?_eq_some_iff_append.mpr ⟨hk, as, bs, e, fun j hm => ?_⟩
    rw [e] at hp
    simp [hj j ((List.pairwise_append.mp hp).2.2 j hm k (by simp))]

/-! ### The timers (10_state.md R44) -/

theorem tickTimer_toNat (t : Byte) : (tickTimer t).toNat = t.toNat - 1 := by
  unfold tickTimer
  split
  · rename_i h; simp [h]
  · rename_i h
    have : t.toNat ≠ 0 := fun h0 => h (BitVec.eq_of_toNat_eq (by simpa using h0))
    rw [BitVec.toNat_sub]; simp; omega

end Sys2Proof.Machine
end

