-- ==== Sys2Proof/Laws/Steps.lean ====
section
/-! SUPPORT. What the shared operations of a step can do, each said once: the store at `I`, running a word, the engine's
step, and that each operation that writes memory keeps its canonical form. -/

namespace Sys2Proof.Machine

/-- All `State.storeAtIndex` can do: past the instruction with the bytes at `I`, or AddressOutOfRange (R63, R222). -/
theorem State.storeAtIndex_cases (s : State) (ins : Instr) (bs : List Byte) :
    ((bs.length = 0 ∨ s.i.toNat + bs.length ≤ Config.memSize) ∧ State.storeAtIndex s ins bs =
      .next (State.advance { s with mem := Memory.writeAll s.mem s.i.toNat bs })) ∨
    (bs.length ≠ 0 ∧ Config.memSize < s.i.toNat + bs.length ∧ State.storeAtIndex s ins bs =
      .next (State.raiseAddress s ins (lowestOutside s.i.toNat))) := by
  unfold State.storeAtIndex
  rcases State.memWrite_cases s (State.dataAddr s) bs with ⟨h, e⟩ | ⟨h, h', e⟩
  · exact .inl ⟨h, by rw [e]; rfl⟩
  · exact .inr ⟨h, h', by rw [e]; rfl⟩

/-- All `engineStep` can do: nothing where a fault is recorded, the fetch's fault, UnknownInstruction, or the instruction's
meaning (R43, R226, R227). -/
theorem engineStep_cases (s : State) :
    (s.fault.kind ≠ .none ∧ engineStep s = .next s) ∨
    (s.fault.kind = .none ∧ Config.memSize < s.pc.toNat + 2 ∧
      engineStep s = .next (State.raiseFetch s (lowestOutside s.pc.toNat))) ∨
    (s.fault.kind = .none ∧ s.pc.toNat + 2 ≤ Config.memSize ∧
      ∃ w, State.fetch s = .ok w ∧
        ((∃ e, decode w = .error e ∧ engineStep s = .next (State.raise s .unknownInstruction w 0)) ∨
         (∃ i, decode w = .ok i ∧ engineStep s = exec i s))) := by
  by_cases hk : s.fault.kind = .none
  · have hf : State.faulted s = false := by simp [State.faulted, hk]
    rcases State.fetch_cases s with ⟨h, e⟩ | ⟨h, e⟩
    · refine .inr (.inr ⟨hk, h, _, e, ?_⟩)
      cases hd : decode (wordOfBytes (State.byteAt s s.pc.toNat) (State.byteAt s (s.pc.toNat + 1))) with
      | error x => exact .inl ⟨x, rfl, by simp [engineStep, hf, e, runWord, hd]⟩
      | ok i => exact .inr ⟨i, rfl, by simp [engineStep, hf, e, runWord, hd]⟩
    · exact .inr (.inl ⟨hk, h, by simp [engineStep, hf, e]⟩)
  · exact .inl ⟨hk, by simp [engineStep, State.faulted, hk]⟩

/-! ### The canonical form of memory is kept -/

theorem State.memWrite_wf {s t : State} {a : Nat} {bs : List Byte} (h : Memory.wf s.mem)
    (e : State.memWrite s a bs = .ok t) : Memory.wf t.mem := by
  rcases State.memWrite_cases s a bs with ⟨hb, e'⟩ | ⟨_, _, e'⟩
  · rw [e'] at e
    cases e
    rcases hb with hb | hb
    · cases List.eq_nil_of_length_eq_zero hb
      exact h
    · exact Memory.wf_writeAll bs h hb
  · rw [e'] at e
    cases e

theorem State.relaunch_wf (s : State) (image : List (Addr12 × Byte)) : Memory.wf (State.relaunch s image).mem :=
  Memory.wf_image image Memory.wf_nil

theorem State.fetchablePc_le (s : State) : (State.fetchablePc s).toNat + 2 ≤ Config.memSize := by
  unfold State.fetchablePc
  split
  · assumption
  · decide

theorem State.placeWord_wf {s : State} (w : Word) (h : Memory.wf s.mem) : Memory.wf (State.placeWord s w).mem :=
  Memory.wf_writeAll _ h (State.fetchablePc_le s)

theorem State.reset_wf : Memory.wf State.reset.mem := Memory.wf_nil

end Sys2Proof.Machine
end

