-- ==== Sys2Proof/Tests/Slice0.lean ====
section
/-! SUPPORT. Tests of the model by its writer. Every expected value comes from spec/95_test_vectors.md (the vector's id
stands in the comment), from the opcode map of 30_encoding.md R96, or by hand from the rule named. After them the
witnesses: for every statement with hypotheses, a concrete state and operands that meet them, clause by clause. -/

namespace Sys2Proof.Tests
open Sys2Proof Sys2Proof.Machine

/-! ### Small states -/

/-- The reset state with some general registers set. -/
def regs (l : List (Reg × Byte)) (s : State := State.reset) : State :=
  l.foldl (fun t p => State.setV t p.1 p.2) s

/-- A state with bytes at consecutive addresses. -/
def bytes (a : Nat) (bs : List Byte) (s : State := State.reset) : State :=
  { s with mem := Memory.writeAll s.mem a bs }

/-- A state with some pixels flipped. -/
def pixels (l : List (Nat × Nat)) (s : State := State.reset) : State :=
  { s with fb := l.foldl (fun f p => Framebuffer.flip f p.1 p.2) s.fb }

/-- A state with some keys down. -/
def keys (l : List Key) (s : State := State.reset) : State :=
  l.foldl (fun t k => State.setKey t k true) s

/-- A state with `I` set. -/
def index (a : Word) (s : State := State.reset) : State := State.setI s a

/-- A state with `PC` set. -/
def at_ (a : Word) (s : State := State.reset) : State := State.goto s a

/-- A state with `SP` and the entry it points to set. -/
def stacked (sp : BitVec 8) (e : Word) (s : State := State.reset) : State :=
  { s with sp := sp, stack := s.stack.setIfInBounds sp.toNat e }

/-- A state with a fault recorded. -/
def faulty (s : State := State.reset) : State := State.raise s .unknownInstruction 0x0000 0

/-- A state with transactions scheduled. -/
def scheduled (l : List Transaction) (s : State := State.reset) : State := { s with agenda := l }

/-- The answer is a next state that passes a check. -/
def nextIs (a : Answer) (p : State → Bool) : Bool :=
  match a with
  | .next t => p t
  | .fault _ => false
  | .refused _ => false

/-- One step of the word placed where the next step fetches answers a next state that passes a check. -/
def runs (s : State) (word : Nat) (p : State → Bool) : Bool :=
  nextIs (step (State.withFetchWord s 16 word)) p

/-- The state after an answer that is a next state. -/
def landed (a : Answer) : State :=
  match a with
  | .next t => t
  | .fault _ => State.reset
  | .refused _ => State.reset

/-- The fault record of a state: kind, `PC`, opcode, validity, address. -/
def record (t : State) (k : FaultKind) (pc op : Word) (v : Bool) (a : BitVec 17) : Bool :=
  t.fault == { kind := k, pc := pc, opcode := op, opvalid := v, addr := a }

/-! ### Well-formed and ill-formed words (30_encoding.md R94, R97; T-DEC-5, 7, 9, 10, 13, 17) -/

theorem test_wellformed_word :
    LegalWord 0x00E0 = true ∧ LegalWord 0x8AB6 = true ∧ LegalWord 0xF365 = true := by decide

theorem test_illformed_family0 :
    LegalWord 0x0123 = false ∧ decode 0x0123 = .error (.unknownInstruction 0x0123) := by decide
theorem test_illformed_family5 :
    LegalWord 0x5121 = false ∧ decode 0x5121 = .error (.unknownInstruction 0x5121) := by decide
theorem test_illformed_family8 :
    LegalWord 0x8018 = false ∧ decode 0x8018 = .error (.unknownInstruction 0x8018) := by decide
theorem test_illformed_family9 :
    LegalWord 0x9121 = false ∧ decode 0x9121 = .error (.unknownInstruction 0x9121) := by decide
theorem test_illformed_familyE :
    LegalWord 0xE09F = false ∧ decode 0xE09F = .error (.unknownInstruction 0xE09F) := by decide
theorem test_illformed_familyF :
    LegalWord 0xF108 = false ∧ decode 0xF108 = .error (.unknownInstruction 0xF108) := by decide

/-! ### Every pattern decoded from a word written out bit by bit (30_encoding.md R91, R96) -/

theorem test_decode_cls : decode 0b0000000011100000 = .ok (.cls) := by decide
theorem test_decode_ret : decode 0b0000000011101110 = .ok (.ret) := by decide
theorem test_decode_jp : decode 0b0001101010111100 = .ok (.jp 0xABC) := by decide
theorem test_decode_call : decode 0b0010000100100011 = .ok (.call 0x123) := by decide
theorem test_decode_seImm : decode 0b0011101001000010 = .ok (.seImm 0xA 0x42) := by decide
theorem test_decode_sneImm : decode 0b0100101100011000 = .ok (.sneImm 0xB 0x18) := by decide
theorem test_decode_seReg : decode 0b0101000100100000 = .ok (.seReg 1 2) := by decide
theorem test_decode_ldImm : decode 0b0110001001101001 = .ok (.ldImm 2 0x69) := by decide
theorem test_decode_addImm : decode 0b0111001110000001 = .ok (.addImm 3 0x81) := by decide
theorem test_decode_ldReg : decode 0b1000000100100000 = .ok (.ldReg 1 2) := by decide
theorem test_decode_orReg : decode 0b1000000100100001 = .ok (.orReg 1 2) := by decide
theorem test_decode_andReg : decode 0b1000000100100010 = .ok (.andReg 1 2) := by decide
theorem test_decode_xorReg : decode 0b1000000100100011 = .ok (.xorReg 1 2) := by decide
theorem test_decode_addReg : decode 0b1000000100100100 = .ok (.addReg 1 2) := by decide
theorem test_decode_subReg : decode 0b1000000100100101 = .ok (.subReg 1 2) := by decide
theorem test_decode_shr : decode 0b1000000100100110 = .ok (.shr 1 2) := by decide
theorem test_decode_subnReg : decode 0b1000000100100111 = .ok (.subnReg 1 2) := by decide
theorem test_decode_shl : decode 0b1000000100101110 = .ok (.shl 1 2) := by decide
theorem test_decode_sneReg : decode 0b1001000100100000 = .ok (.sneReg 1 2) := by decide
theorem test_decode_ldI : decode 0b1010001100000001 = .ok (.ldI 0x301) := by decide
theorem test_decode_jpV0 : decode 0b1011111111101101 = .ok (.jpV0 0xFED) := by decide
theorem test_decode_rnd : decode 0b1100001100001111 = .ok (.rnd 3 0x0F) := by decide
theorem test_decode_drw : decode 0b1101000100100101 = .ok (.drw 1 2 5) := by decide
theorem test_decode_skp : decode 0b1110000110011110 = .ok (.skp 1) := by decide
theorem test_decode_sknp : decode 0b1110000110100001 = .ok (.sknp 1) := by decide
theorem test_decode_ldVxDt : decode 0b1111001100000111 = .ok (.ldVxDt 3) := by decide
theorem test_decode_ldVxKey : decode 0b1111001000001010 = .ok (.ldVxKey 2) := by decide
theorem test_decode_ldDtVx : decode 0b1111010000010101 = .ok (.ldDtVx 4) := by decide
theorem test_decode_ldStVx : decode 0b1111010000011000 = .ok (.ldStVx 4) := by decide
theorem test_decode_addI : decode 0b1111000100011110 = .ok (.addI 1) := by decide
theorem test_decode_ldFont : decode 0b1111001100101001 = .ok (.ldFont 3) := by decide
theorem test_decode_ldBcd : decode 0b1111101000110011 = .ok (.ldBcd 0xA) := by decide
theorem test_decode_storeRegs : decode 0b1111001001010101 = .ok (.storeRegs 2) := by decide
theorem test_decode_loadRegs : decode 0b1111001001100101 = .ok (.loadRegs 2) := by decide

theorem test_decode_bytes : decodeBytes [0x22, 0x04, 0x77] = .ok (.call 0x204, [0x77]) := by decide
theorem test_decode_truncated : decodeBytes [0x22] = .error .truncated := by decide
theorem test_decode_table_word : decodeTableWord 16 0x8AB6 = some (.shr 0xA 0xB) := by decide

/-! ### Control transfer (section 2.2) -/

/-- T-FLOW-1. -/
theorem test_jp : runs (State.reset) 0x1ABC
    (fun t => t.pc == 0xABC && t.sp == 0 && t.fault == FaultRecord.clear) = true := by decide
/-- T-FLOW-3. -/
theorem test_jp_odd : runs (State.reset) 0x1201
    (fun t => t.pc == 0x201 && t.fault == FaultRecord.clear) = true := by decide
/-- T-FLOW-5. -/
theorem test_call : runs (at_ 0x456 (stacked 14 0)) 0x2300
    (fun t => t.pc == 0x300 && t.sp == 15 && t.stack[15] == 0x456 && t.fault == FaultRecord.clear) = true :=
  by decide
/-- T-FLOW-6. -/
theorem test_call_overflow : runs (at_ 0x456 (stacked 15 0x77)) 0x2300
    (fun t => t.pc == 0x456 && t.sp == 15 && t.stack[15] == 0x77 && record t .stackOverflow 0x456 0x2300 true 0) = true :=
  by decide
/-- T-FLOW-7. -/
theorem test_ret : runs (at_ 0x300 (stacked 1 0x200)) 0x00EE
    (fun t => t.pc == 0x202 && t.sp == 0 && t.stack[1] == 0x200 && t.fault == FaultRecord.clear) = true := by decide
/-- T-FLOW-8. -/
theorem test_ret_underflow : runs (at_ 0x300) 0x00EE
    (fun t => t.pc == 0x300 && t.sp == 0 && record t .stackUnderflow 0x300 0x00EE true 0) = true := by decide
/-- T-FLOW-10. -/
theorem test_seImm : runs (regs [(0xA, 0x42)]) 0x3A42
    (fun t => t.pc == 0x204) = true := by decide
/-- T-FLOW-11. -/
theorem test_seImm_not : runs (regs [(0xA, 0x43)]) 0x3A42
    (fun t => t.pc == 0x202) = true := by decide
/-- T-FLOW-13. -/
theorem test_sneImm : runs (regs [(0xA, 0x43)]) 0x4A42
    (fun t => t.pc == 0x204) = true := by decide
/-- T-FLOW-12. -/
theorem test_sneImm_not : runs (regs [(0xA, 0x42)]) 0x4A42
    (fun t => t.pc == 0x202) = true := by decide
/-- T-FLOW-14. -/
theorem test_seReg : runs (regs [(1, 7), (2, 7)]) 0x5120
    (fun t => t.pc == 0x204) = true := by decide
/-- T-FLOW-15. -/
theorem test_seReg_not : runs (regs [(1, 7), (2, 8)]) 0x5120
    (fun t => t.pc == 0x202) = true := by decide
/-- T-FLOW-18. -/
theorem test_sneReg : runs (regs [(1, 7), (2, 8)]) 0x9120
    (fun t => t.pc == 0x204) = true := by decide
/-- T-FLOW-17. -/
theorem test_sneReg_not : runs (regs [(1, 7), (2, 7)]) 0x9120
    (fun t => t.pc == 0x202) = true := by decide
/-- T-FLOW-20. -/
theorem test_jpV0 : runs (regs [(0, 0x10)]) 0xB300
    (fun t => t.pc == 0x310) = true := by decide
/-- T-FLOW-21. -/
theorem test_jpV0_past_memory : runs (regs [(0, 0xFF)]) 0xBFFF
    (fun t => t.pc == 0x10FE && t.fault == FaultRecord.clear) = true := by decide

/-! ### Load and arithmetic (sections 2.3 and 2.4) -/

/-- T-ALU-28. -/
theorem test_ldImm : runs (State.reset) 0x6269
    (fun t => State.readV t 2 == 0x69 && t.pc == 0x202) = true := by decide
/-- T-ALU-30. -/
theorem test_addImm_wraps : runs (regs [(0, 0xFF), (15, 0x55)]) 0x7001
    (fun t => State.readV t 0 == 0 && State.readV t VF == 0x55 && t.pc == 0x202) = true := by decide
/-- T-ALU-31. -/
theorem test_addImm_flag_register : runs (regs [(15, 1)]) 0x7FFF
    (fun t => State.readV t VF == 0) = true := by decide
/-- T-ALU-27. -/
theorem test_ldReg : runs (regs [(0, 0x12), (1, 0x34), (15, 0x55)]) 0x8010
    (fun t => State.readV t 0 == 0x34 && State.readV t 1 == 0x34 && State.readV t VF == 0x55 && t.pc == 0x202) = true :=
  by decide
/-- T-ALU-24. -/
theorem test_orReg : runs (regs [(0, 0xF0), (1, 0x0F), (15, 0x55)]) 0x8011
    (fun t => State.readV t 0 == 0xFF && State.readV t 1 == 0x0F && State.readV t VF == 0x55 && t.pc == 0x202) = true :=
  by decide
/-- T-ALU-25. -/
theorem test_andReg : runs (regs [(0, 0xF0), (1, 0x3C), (15, 0x55)]) 0x8012
    (fun t => State.readV t 0 == 0x30 && State.readV t 1 == 0x3C && State.readV t VF == 0x55 && t.pc == 0x202) = true :=
  by decide
/-- T-ALU-26. -/
theorem test_xorReg : runs (regs [(0, 0xFF), (1, 0x0F), (15, 0x55)]) 0x8013
    (fun t => State.readV t 0 == 0xF0 && State.readV t 1 == 0x0F && State.readV t VF == 0x55 && t.pc == 0x202) = true :=
  by decide
/-- T-ALU-5. -/
theorem test_addReg : runs (regs [(0, 0xFF), (1, 0xFF), (15, 0x55)]) 0x8014
    (fun t => State.readV t 0 == 0xFE && State.readV t 1 == 0xFF && State.readV t VF == 1 && t.pc == 0x202) = true :=
  by decide
/-- T-VF-1. -/
theorem test_addReg_flag_register : runs (regs [(15, 0xFF), (1, 2)]) 0x8F14
    (fun t => State.readV t VF == 1) = true := by decide
/-- T-ALU-6. -/
theorem test_subReg_equal : runs (regs [(0, 5), (1, 5), (15, 0x55)]) 0x8015
    (fun t => State.readV t 0 == 0 && State.readV t 1 == 5 && State.readV t VF == 0 && t.pc == 0x202) = true :=
  by decide
/-- T-VF-5. -/
theorem test_subReg_flag_register : runs (regs [(15, 9), (1, 3)]) 0x8F15
    (fun t => State.readV t VF == 6) = true := by decide
/-- T-ALU-18. -/
theorem test_shr : runs (regs [(0, 0xFF), (1, 0), (15, 0x55)]) 0x8016
    (fun t => State.readV t 0 == 0x7F && State.readV t 1 == 0 && State.readV t VF == 1 && t.pc == 0x202) = true :=
  by decide
/-- T-VF-9. -/
theorem test_shr_flag_register : runs (regs [(15, 7)]) 0x8F16
    (fun t => State.readV t VF == 3) = true := by decide
/-- T-ALU-13. -/
theorem test_subnReg : runs (regs [(0, 6), (1, 5), (15, 0x55)]) 0x8017
    (fun t => State.readV t 0 == 0xFF && State.readV t 1 == 5 && State.readV t VF == 0 && t.pc == 0x202) = true :=
  by decide
/-- T-VF-11. -/
theorem test_subnReg_flag_source : runs (regs [(0, 3), (15, 9)]) 0x80F7
    (fun t => State.readV t 0 == 6 && State.readV t VF == 1) = true := by decide
/-- T-ALU-22. -/
theorem test_shl : runs (regs [(0, 0xFF), (1, 0), (15, 0x55)]) 0x801E
    (fun t => State.readV t 0 == 0xFE && State.readV t 1 == 0 && State.readV t VF == 1 && t.pc == 0x202) = true :=
  by decide
/-- T-VF-12. -/
theorem test_shl_flag_register : runs (regs [(15, 0x81)]) 0x8F1E
    (fun t => State.readV t VF == 2) = true := by decide

/-- `(a &&& 0) = 0` for the free byte too: what no kernel can evaluate is proved. -/
theorem and_zero_byte (a : Byte) : a &&& 0 = 0 := by simp

/-- T-ALU-35: with mask 0 the result is 0 whatever the free byte. -/
theorem test_rnd_mask_zero : ∃ t, exec (.rnd 3 0x00) (regs [(3, 0x77)]) = .next t ∧ State.readV t 3 = 0 ∧
    t.pc = 0x202 :=
  ⟨_, rfl, and_zero_byte _, rfl⟩

/-! ### Address register and memory (section 2.5) -/

/-- T-MEM-2. -/
theorem test_ldI : runs (State.reset) 0xAFFF
    (fun t => t.i == 0xFFF && t.pc == 0x202) = true := by decide
/-- T-MEM-5. -/
theorem test_addI : runs (index 0xFFFF (regs [(1, 2), (15, 0x55)])) 0xF11E
    (fun t => t.i == 1 && State.readV t VF == 0x55 && t.fault == FaultRecord.clear) = true := by decide
/-- T-MEM-4. -/
theorem test_addI_past_memory : runs (index 0x0FFF (regs [(1, 1), (15, 0x55)])) 0xF11E
    (fun t => t.i == 0x1000 && State.readV t VF == 0x55 && t.fault == FaultRecord.clear) = true := by decide
/-- T-MEM-7. -/
theorem test_ldFont : runs (regs [(3, 0x0A)]) 0xF329
    (fun t => t.i == 0x32) = true := by decide
/-- T-MEM-8. -/
theorem test_ldFont_no_mask : runs (regs [(3, 0xFF)]) 0xF329
    (fun t => t.i == 0x4FB) = true := by decide
/-- T-MEM-10. -/
theorem test_ldBcd : runs (index 0x300 (regs [(0xA, 156)])) 0xFA33
    (fun t => State.byteAt t 0x300 == 1 && State.byteAt t 0x301 == 5 && State.byteAt t 0x302 == 6 && t.i == 0x300 &&
      t.pc == 0x202) = true := by decide
/-- T-MEM-16. -/
theorem test_ldBcd_out_of_range : runs (index 0xFFE (regs [(0xA, 7)])) 0xFA33
    (fun t => record t .addressOutOfRange 0x200 0xFA33 true 0x1000 && State.byteAt t 0xFFE == 0 && State.byteAt t 0xFFF
      == 0 && t.pc == 0x200) = true := by decide
/-- T-MEM-18. -/
theorem test_storeRegs : runs (index 0x400 (regs [(0, 0x11), (1, 0x22), (2, 0x33), (3, 0x44)])) 0xF255
    (fun t => State.byteAt t 0x400 == 0x11 && State.byteAt t 0x401 == 0x22 && State.byteAt t 0x402 == 0x33 &&
      State.byteAt t 0x403 == 0 && t.i == 0x400) = true := by decide
/-- T-MEM-22. -/
theorem test_storeRegs_out_of_range : runs (index 0xFFF (regs [(0, 0x11), (1, 0x22)])) 0xF155
    (fun t => record t .addressOutOfRange 0x200 0xF155 true 0x1000 && State.byteAt t 0xFFF == 0) = true := by decide
/-- T-MEM-23. -/
theorem test_loadRegs : runs (index 0x300 (bytes 0x300 [1, 5, 6, 7] (regs [(3, 0x99)]))) 0xF265
    (fun t => State.readV t 0 == 1 && State.readV t 1 == 5 && State.readV t 2 == 6 && State.readV t 3 == 0x99 && t.i ==
      0x300) = true := by decide
/-- T-MEM-25. -/
theorem test_loadRegs_out_of_range : runs (index 0xFFF (bytes 0xFFF [0x12] (regs [(0, 0x77), (1, 0x88)]))) 0xF165
    (fun t => record t .addressOutOfRange 0x200 0xF165 true 0x1000 && State.readV t 0 == 0x77 && State.readV t 1 ==
      0x88) = true := by decide

/-- 20_memory.md R60, R63: a write keeps memory canonical, and writing 0 takes the entry out again. -/
theorem test_memory_canonical :
    Memory.writeAll [] 0x300 [3, 0, 5] = [(0x300, 3), (0x302, 5)] ∧
    Memory.write (Memory.write [(0x302, 5)] 0x300 3) 0x302 0 = [(0x300, 3)] ∧
    Memory.wf (Memory.writeAll [(0x301, 9)] 0x300 [3, 0, 5]) := by decide

/-! ### Display (section 2.6) -/

/-- T-DSP-13. -/
theorem test_cls : runs (index 0x123 (pixels [(0, 0), (63, 31)] (regs [(15, 0x55)]))) 0x00E0
    (fun t => t.fb == State.reset.fb && State.readV t VF == 0x55 && t.i == 0x123 && t.pc == 0x202) = true :=
  by decide
/-- T-DSP-1. -/
theorem test_drw_wraps : runs (index 0x20E (bytes 0x20E [0xC0, 0x81] (regs [(0, 62), (1, 31)]))) 0xD012
    (fun t => t.fb == (pixels [(62, 31), (63, 31), (62, 0), (5, 0)]).fb && State.readV t VF == 0 && t.i == 0x20E &&
      t.pc == 0x202) = true := by decide
/-- T-DSP-5. -/
theorem test_drw_collides :
    runs (index 0x300 (bytes 0x300 [0xF0] (pixels [(5, 4), (9, 9)] (regs [(0, 4), (1, 4)])))) 0xD011
    (fun t => t.fb == (pixels [(4, 4), (6, 4), (7, 4), (9, 9)]).fb && State.readV t VF == 1) = true := by decide

/-! ### Keys and timers (section 2.7) -/

/-- T-KEY-5. -/
theorem test_skp : runs (keys [7] (regs [(1, 0x17)])) 0xE19E
    (fun t => t.pc == 0x204) = true := by decide
/-- T-KEY-2. -/
theorem test_skp_up : runs (regs [(1, 7)]) 0xE19E
    (fun t => t.pc == 0x202) = true := by decide
/-- T-KEY-3. -/
theorem test_sknp : runs (regs [(1, 7)]) 0xE1A1
    (fun t => t.pc == 0x204) = true := by decide
/-- T-KEY-6. -/
theorem test_sknp_down : runs (keys [7] (regs [(1, 0xF7)])) 0xE1A1
    (fun t => t.pc == 0x202) = true := by decide
/-- T-KEY-9. -/
theorem test_ldVxKey_waits : runs (regs [(2, 0x33)]) 0xF20A
    (fun t => t.pc == 0x200 && State.readV t 2 == 0x33 && State.awaitingInput t) = true := by decide
/-- T-KEY-11. -/
theorem test_ldVxKey_lowest : runs (keys [3, 9, 12] (regs [(2, 0x33)])) 0xF20A
    (fun t => t.pc == 0x202 && State.readV t 2 == 3 && State.keyDown t 9) = true := by decide
/-- T-TMR-1. -/
theorem test_ldVxDt : runs (State.setDt State.reset 0x2A) 0xF307
    (fun t => State.readV t 3 == 0x2A && t.dt == 0x2A && t.pc == 0x202) = true := by decide
/-- T-TMR-2. -/
theorem test_ldDtVx : runs (State.setDt (regs [(0, 3)]) 0x99) 0xF015
    (fun t => t.dt == 3 && t.pc == 0x202) = true := by decide
/-- T-TMR-3. -/
theorem test_ldStVx : runs (regs [(4, 0x10)]) 0xF418
    (fun t => t.st == 0x10 && State.soundActive t) = true := by decide
/-- T-TMR-4. -/
theorem test_ldStVx_zero : runs (State.setSt State.reset 5) 0xF418
    (fun t => t.st == 0 && !State.soundActive t) = true := by decide

/-- T-TMR-6: a tick lowers `DT` from 255 and `ST` to 0. -/
theorem test_tick : nextIs (step (scheduled [.tick] (State.setSt (State.setDt State.reset 255) 1)))
    (fun t => t.dt == 254 && t.st == 0 && !State.soundActive t && t.pc == 0x200) = true := by decide

/-- T-TMR-5: a timer stays at 0. -/
theorem test_tick_floor : nextIs (step (scheduled [.tick])) (fun t => t.dt == 0 && t.st == 0) = true := by decide

/-- T-TMR-7: ticks act after a fault, the record stays. -/
theorem test_tick_after_fault : nextIs (step (scheduled [.tick] (State.setDt faulty 5)))
    (fun t => t.dt == 4 && t.fault.kind == .unknownInstruction) = true := by decide

/-- 10_state.md R45: one key goes down and no other. -/
theorem test_key : nextIs (step (scheduled [.key 7 true] (keys [3])))
    (fun t => State.keyDown t 7 && State.keyDown t 3 && !State.keyDown t 8) = true := by decide

/-- 10_state.md R45, 60_exceptions.md R226: a key changes after a fault too. -/
theorem test_key_after_fault : nextIs (step (scheduled [.key 7 true] faulty))
    (fun t => State.keyDown t 7 && t.fault == faulty.fault) = true := by decide

/-- T-TMR-8: a press and a release with no step between leave the key up. -/
theorem test_key_released : nextIs (step (scheduled [.key 7 false] (keys [7])))
    (fun t => !State.keyDown t 7) = true := by decide

/-- 10_state.md R47: a `STEP` before a `TICK` requested with it, another pair in either order. -/
theorem test_coincident_step_tick : coincidentOrders .tick .step = [[.step, .tick]] ∧
    coincidentOrders .tick (.key 7 true) = [[.tick, .key 7 true], [.key 7 true, .tick]] := by decide

/-! ### Faults, fetch, reset (section 2.8) -/

/-- T-DEC-1: zero-filled memory is illegal code. -/
theorem test_illegal_word : nextIs (step State.reset)
    (fun t => record t .unknownInstruction 0x200 0x0000 true 0 && t.pc == 0x200) = true := by decide

/-- T-FLT-1, T-FLT-7: the fetch fault. Its opcode is a free value, so the test does not look at it. -/
theorem test_fetch_fault : nextIs (step (at_ 0xFFF))
    (fun t => t.fault.kind == .addressOutOfRange && t.fault.pc == 0xFFF && !t.fault.opvalid &&
      t.fault.addr == 0x1000 && t.pc == 0xFFF) = true := by decide

/-- T-FLT-3, its first step: the last word of memory executes. -/
theorem test_last_word : nextIs (step (at_ 0xFFE (bytes 0xFFE [0x6A, 0x11])))
    (fun t => State.readV t 0xA == 0x11 && t.pc == 0x1000 && t.fault.kind == .none) = true := by decide

/-- T-FLT-4, its second step: a word at an odd address, high byte first. -/
theorem test_odd_fetch : nextIs (step (at_ 0x203 (bytes 0x202 [0xFF, 0x6A, 0x42])))
    (fun t => State.readV t 0xA == 0x42 && t.pc == 0x205) = true := by decide

/-- T-FLT-5: nothing changes after a fault, be the word at `PC` legal. -/
theorem test_fault_is_sticky : nextIs (step (bytes 0x200 [0x6A, 0x11] faulty))
    (fun t => State.readV t 0xA == 0 && t.pc == 0x200 && t.fault == faulty.fault) = true := by decide

/-- T-FLT-6, with an image: the reset state, the image over zeroes, a later load of one address winning. -/
theorem test_reset : nextIs (step (scheduled [.reset [(0x200, 0x12), (0x201, 0x34), (0x200, 0x6A)]]
      (bytes 0x300 [9] (at_ 0x456 faulty))))
    (fun t => t.mem == [(0x200, 0x6A), (0x201, 0x34)] && t.pc == 0x200 && t.fault == FaultRecord.clear) = true := by
  decide

/-- 10_state.md R33, 60_exceptions.md R220: the codes of the fault kinds. -/
theorem test_fault_codes : FaultKind.code .none = 0 ∧ FaultKind.code .unknownInstruction = 1 ∧
    FaultKind.code .addressOutOfRange = 2 ∧ FaultKind.code .stackOverflow = 3 ∧
    FaultKind.code .stackUnderflow = 4 := by decide

/-- 95_test_vectors.md section 3: the end of a run, a jump to itself; T-FLOW-2. -/
theorem test_self_jump : selfJump (bytes 0x200 [0x12, 0x00]) = true ∧
    selfJump (bytes 0x200 [0x12, 0x02]) = false := by decide

/-! ## Witnesses: states and operands that meet the hypotheses of the statements -/

/-! ### Encoding -/

theorem witness_EncodeOfDecodeIsTheWord : decode 0x8AB6 = .ok (.shr 0xA 0xB) := by decide
theorem witness_DecoderAcceptsExactlyTheOpcodeMap_legal : LegalWord 0x00EE = true ∧ ⟨0x00EE, 0xFFFF⟩ ∈ opcodeMap ∧
    OpcodeRow.matchesWord ⟨0x00EE, 0xFFFF⟩ 0x00EE = true := by decide
theorem witness_DecoderAcceptsExactlyTheOpcodeMap_illegal : LegalWord 0x00EF = false := by decide

/-! ### Control transfer -/

theorem witness_ReturnGoesTwoPastThePoppedCall_empty : State.reset.sp = 0 := by decide
theorem witness_ReturnGoesTwoPastThePoppedCall_one :
    0 < (stacked 1 0x200).sp.toNat ∧ (stacked 1 0x200).sp.toNat < 16 := by decide
theorem witness_ReturnGoesTwoPastThePoppedCall_full :
    0 < (stacked 15 0x200).sp.toNat ∧ (stacked 15 0x200).sp.toNat < 16 := by decide
theorem witness_CallPushesItsOwnAddress_room : (stacked 14 0x200).sp.toNat < 15 := by decide
theorem witness_CallPushesItsOwnAddress_full : (stacked 15 0x200).sp = 15 := by decide
theorem witness_CallThenReturnComesBackPastTheCall : ∃ s t u : State, ∃ nnn : Addr12, s.sp.toNat < 15 ∧
    exec (.call nnn) s = .next t ∧ u.sp = t.sp ∧ u.stack = t.stack ∧ u.pc ≠ t.pc :=
  ⟨stacked 14 0, landed (exec (.call 0x300) (stacked 14 0)), at_ 0x456 (landed (exec (.call 0x300) (stacked 14 0))),
    0x300, by decide, rfl, rfl, rfl, by decide⟩

/-! ### Load and arithmetic -/

theorem witness_AddSetsTheCarryFlag : (0xE : Reg) ≠ VF := by decide
theorem witness_SubtractSetsTheStrictFlag : (0xE : Reg) ≠ VF := by decide
theorem witness_ReverseSubtractSetsTheStrictFlag : (0xE : Reg) ≠ VF := by decide
theorem witness_ShiftsSetTheBitShiftedOut : (0xE : Reg) ≠ VF := by decide
theorem witness_RandomByteIsMasked_zero : (0x00 : Byte) = 0 := by decide

/-! ### Memory transfer -/

theorem witness_BcdStoresThreeDigits_inside : (index 0xFFD).i.toNat ≤ 0xFFD := by decide
theorem witness_BcdStoresThreeDigits_outside : 0xFFD < (index 0xFFE).i.toNat := by decide
theorem witness_StoreCopiesLowRegistersToMemory_inside :
    (index 0xFF0).i.toNat + (15 : Reg).toNat ≤ 0xFFF ∧ (15 : Reg).toNat ≤ (15 : Reg).toNat := by decide
theorem witness_StoreCopiesLowRegistersToMemory_outside :
    0xFFF < (index 0xFF1).i.toNat + (15 : Reg).toNat := by decide
theorem witness_LoadCopiesMemoryToLowRegisters_inside :
    (index 0xFF0).i.toNat + (15 : Reg).toNat ≤ 0xFFF ∧ (15 : Reg).toNat ≤ (15 : Reg).toNat := by decide
theorem witness_LoadCopiesMemoryToLowRegisters_outside :
    0xFFF < (index 0xFF1).i.toNat + (15 : Reg).toNat := by decide
theorem witness_StoredRegistersLoadBack : ∃ s t u : State, ∃ x k : Reg, s.i.toNat + x.toNat ≤ 0xFFF ∧
    exec (.storeRegs x) s = .next t ∧ u.mem = t.mem ∧ u.i = t.i ∧ k.toNat ≤ x.toNat :=
  ⟨index 0xFFE, landed (exec (.storeRegs 1) (index 0xFFE)),
    State.setV (landed (exec (.storeRegs 1) (index 0xFFE))) 0 7, 1, 1, by decide, rfl, rfl, rfl, by decide⟩
theorem witness_StoreIntoTheNextInstructionIsFetched : (index 0x202).i.toNat + (1 : Reg).toNat ≤ 0xFFF ∧
    (1 : Reg).toNat = (0 : Reg).toNat + 1 ∧ (1 : Reg).toNat ≤ (1 : Reg).toNat ∧
    (index 0x202).pc.toNat + 2 = (index 0x202).i.toNat + (0 : Reg).toNat := by decide

/-! ### Memory -/

theorem witness_MemReadGivesTheBytesOrTheAddress_none : (0 : Nat) = 0 := by decide
theorem witness_MemReadGivesTheBytesOrTheAddress_outside : 2 ≠ 0 ∧ 0xFFF < 0xFFF + 2 - 1 := by decide
theorem witness_MemReadGivesTheBytesOrTheAddress_inside : 1 ≠ 0 ∧ 0xFFF + 1 - 1 ≤ 0xFFF ∧ 0 < 1 := by decide
theorem witness_MemWriteWritesAllOrNothing_outside :
    [1, 2] ≠ ([] : List Byte) ∧ 0xFFF < 0xFFF + [1, 2].length - 1 := by decide
theorem witness_MemWriteWritesAllOrNothing_inside :
    [1] ≠ ([] : List Byte) ∧ 0xFFF + [1].length - 1 ≤ 0xFFF ∧ 0 < [1].length ∧
    (0xFFE < 0xFFF ∨ 0xFFF + [1].length ≤ 0xFFE) := by decide
theorem witness_FetchIsBigEndianAtAnyAddress_inside : (at_ 0xFFE).pc.toNat ≤ 0xFFE := by decide
theorem witness_FetchIsBigEndianAtAnyAddress_outside : 0xFFE < (at_ 0xFFF).pc.toNat := by decide

/-! ### Display -/

/-- T-DSP-5: the draw turns pixel (5, 4) off. -/
def hitState : State := index 0x300 (bytes 0x300 [0xF0] (pixels [(5, 4)] (regs [(0, 4), (1, 4)])))

/-- T-DSP-6: a sprite of one empty row over a set pixel. -/
def missState : State := index 0x300 (pixels [(5, 4)] (regs [(0, 4), (1, 4)]))

theorem witness_DrawXorsTheSpriteIntoEachPixel_no_row : SpriteReadable (index 0xFFFF) 0 := .inl rfl
theorem witness_DrawXorsTheSpriteIntoEachPixel_last_row : SpriteReadable (index 0xFF1) 15 ∧ 63 < 64 ∧ 31 < 32 :=
  ⟨.inr (by decide), by decide, by decide⟩
theorem witness_DrawSetsTheCollisionFlag_collision : SpriteReadable hitState 1 ∧
    State.pixel hitState 5 4 = true ∧ State.pixel (landed (exec (.drw 0 1 1) hitState)) 5 4 = false :=
  ⟨.inr (by decide), by decide, by decide⟩
theorem witness_DrawSetsTheCollisionFlag_none :
    ∃ t, SpriteReadable missState 1 ∧ exec (.drw 0 1 1) missState = .next t ∧
    State.pixel missState 5 4 = true ∧ ∀ px py, px < 64 → py < 32 → State.pixel missState px py = true →
      State.pixel t px py = true :=
  ⟨landed (exec (.drw 0 1 1) missState), .inr (by decide), rfl, by decide, fun _ _ _ _ h => h⟩
theorem witness_DrawSetsTheCollisionFlag_no_row :
    SpriteReadable (index 0xFFFF) 0 ∧ (0 : BitVec 4) = 0 := ⟨.inl rfl, rfl⟩
theorem witness_DrawingTwiceRestoresTheFramebuffer : SpriteReadable hitState 1 ∧ (0 : Reg) ≠ VF ∧ (1 : Reg) ≠ VF :=
  ⟨.inr (by decide), by decide, by decide⟩

/-! ### Keypad and timers -/

theorem witness_KeySkipsTestTheSelectedKey :
    (7 : Key).toNat = (State.readV (regs [(1, 0xF7)]) 1).toNat % 16 := by decide
theorem witness_KeyWaitPollsForTheLowestKey_none : ∀ k, State.keyDown State.reset k = false := by decide
theorem witness_KeyWaitPollsForTheLowestKey_lowest : State.keyDown (keys [3, 9, 12]) 3 = true ∧
    ∀ j : Key, j.toNat < (3 : Key).toNat → State.keyDown (keys [3, 9, 12]) j = false := by decide
theorem witness_AwaitingInputIsAStutter : State.awaitingInput (bytes 0x200 [0xF2, 0x0A]) = true ∧
    (bytes 0x200 [0xF2, 0x0A]).agenda = [] := by decide

/-! ### The step and its faults -/

theorem witness_StepRunsTheDecodedInstruction_nothing_scheduled : (bytes 0x200 [0x6A, 0x11]).fault.kind = .none ∧
    (bytes 0x200 [0x6A, 0x11]).pc.toNat ≤ 0xFFE ∧ decode (wordOfBytes
      (State.byteAt (bytes 0x200 [0x6A, 0x11]) 0x200) (State.byteAt (bytes 0x200 [0x6A, 0x11]) 0x201)) =
        .ok (.ldImm 0xA 0x11) ∧ (bytes 0x200 [0x6A, 0x11]).agenda = [] := by decide
theorem witness_StepRunsTheDecodedInstruction_scheduled : ∃ s : State, s.fault.kind = .none ∧ s.pc.toNat = 0xFFE ∧
    decode (wordOfBytes (State.byteAt s s.pc.toNat) (State.byteAt s (s.pc.toNat + 1))) = .ok (.ldImm 0xA 0x11) ∧
    s.agenda = [.step, .tick] :=
  ⟨scheduled [.step, .tick] (at_ 0xFFE (bytes 0xFFE [0x6A, 0x11])), by decide⟩
theorem witness_PlacedWordIsTheNextInstruction : decodeTableWord 16 0xD125 = some (.drw 1 2 5) := by decide
theorem witness_IllegalWordRaisesUnknownInstruction : State.reset.agenda = [] ∧ State.reset.fault.kind = .none ∧
    State.reset.pc.toNat ≤ 0xFFE ∧
    (0 : Word) = wordOfBytes (State.byteAt State.reset 0x200) (State.byteAt State.reset 0x201) ∧
    LegalWord 0 = false := by decide
theorem witness_FetchOutsideMemoryFaults : (at_ 0xFFF).agenda = [] ∧ (at_ 0xFFF).fault.kind = .none ∧
    0xFFE < (at_ 0xFFF).pc.toNat := by decide
theorem witness_DataAccessOutsideMemoryFaults_store : dataBytes (.ldBcd 0xA) ≠ 0 ∧
    0x1000 < (index 0xFFE).i.toNat + dataBytes (.ldBcd 0xA) := by decide
theorem witness_DataAccessOutsideMemoryFaults_sprite : dataBytes (.drw 0 1 15) ≠ 0 ∧
    0x1000 < (index 0xFF2).i.toNat + dataBytes (.drw 0 1 15) := by decide
theorem witness_StackFaultsRecordTheInstruction_full : (stacked 15 0x200).sp = 15 := by decide
theorem witness_StackFaultsRecordTheInstruction_empty : State.reset.sp = 0 := by decide
theorem witness_FaultingStepChangesOnlyTheRecord : ∃ t, State.reset.agenda = [] ∧ State.reset.fault.kind = .none ∧
    step State.reset = .next t ∧ t.fault.kind ≠ .none :=
  ⟨landed (step State.reset), rfl, rfl, rfl, by decide⟩
theorem witness_InstructionsRaiseOnlyTheirOwnFault :
    ∃ t, State.reset.fault.kind = .none ∧ exec .ret State.reset = .next t ∧
    t.fault.kind ≠ .none :=
  ⟨landed (exec .ret State.reset), rfl, rfl, by decide⟩
theorem witness_RecordedFaultStaysUntilReset_nothing_scheduled : faulty.fault.kind ≠ .none ∧ faulty.agenda = [] ∧
    ∀ image rest, faulty.agenda ≠ .reset image :: rest :=
  ⟨by decide, rfl, fun _ _ h => nomatch h⟩
theorem witness_RecordedFaultStaysUntilReset_tick : (scheduled [.tick] faulty).fault.kind ≠ .none ∧
    ∀ image rest, (scheduled [.tick] faulty).agenda ≠ .reset image :: rest :=
  ⟨by decide, fun _ _ h => nomatch (List.cons.inj h).1⟩
theorem witness_RecordedFaultStaysUntilReset_step : (scheduled [.step, .tick] faulty).fault.kind ≠ .none ∧
    (scheduled [.step, .tick] faulty).agenda = .step :: [.tick] ∧
    ∀ image rest, (scheduled [.step, .tick] faulty).agenda ≠ .reset image :: rest :=
  ⟨by decide, rfl, fun _ _ h => nomatch (List.cons.inj h).1⟩
theorem witness_RecordedFaultStaysUntilReset_key : (scheduled [.key 15 true] faulty).fault.kind ≠ .none ∧
    (∀ image rest, (scheduled [.key 15 true] faulty).agenda ≠ .reset image :: rest) ∧ (0 : Key) ≠ 15 :=
  ⟨by decide, (fun _ _ h => nomatch (List.cons.inj h).1), by decide⟩

/-! ### The environment's transactions -/

theorem witness_TickLowersEachTimerByOne : (scheduled [.tick, .step]).agenda = .tick :: [.step] := rfl
theorem witness_KeySetsOneLatchBit :
    (scheduled [.key 15 true]).agenda = .key 15 true :: [] ∧ (0 : Key) ≠ 15 := by decide
theorem witness_ResetLoadsTheImageOverZeroes :
    (scheduled [.reset [(0xFFF, 7)]] faulty).agenda = .reset [(0xFFF, 7)] :: [] := rfl
theorem witness_FirstFetchAfterResetIsAt200 : (scheduled [.reset []] (at_ 0x456)).agenda = .reset [] :: [] := rfl
theorem witness_ResetStateHoldsTheResetValues_last_entry : 15 < 16 := by decide

/-! ### Rules of the whole machine -/

theorem witness_ProgramCounterAdvancesByClass :
    ∃ t, State.reset.fault.kind = .none ∧ exec (.seReg 3 3) State.reset = .next t ∧
    t.fault.kind = .none :=
  ⟨landed (exec (.seReg 3 3) State.reset), rfl, rfl, rfl⟩
theorem witness_InstructionsWriteOnlyTheirFootprint : ∃ t, exec (.call 0x300) (stacked 14 0) = .next t :=
  ⟨landed (exec (.call 0x300) (stacked 14 0)), rfl⟩
/-- Fx15 with `V[0] = 3`, and Fx18 with the same, from timers at 0. -/
theorem witness_TimerRisesOnlyWhenSet_delay : ∃ t, step (bytes 0x200 [0xF0, 0x15] (regs [(0, 3)])) = .next t ∧
    (bytes 0x200 [0xF0, 0x15] (regs [(0, 3)])).dt.toNat < t.dt.toNat :=
  ⟨landed (step (bytes 0x200 [0xF0, 0x15] (regs [(0, 3)]))), rfl, by decide⟩
theorem witness_TimerRisesOnlyWhenSet_sound : ∃ t, step (bytes 0x200 [0xF0, 0x18] (regs [(0, 3)])) = .next t ∧
    (bytes 0x200 [0xF0, 0x18] (regs [(0, 3)])).st.toNat < t.st.toNat :=
  ⟨landed (step (bytes 0x200 [0xF0, 0x18] (regs [(0, 3)]))), rfl, by decide⟩
theorem witness_EnvironmentCommutesWithOtherInstructions_tick : ∃ t, exec (.skp 1) (regs [(1, 7)]) = .next t ∧
    ∀ x, Instr.skp 1 ≠ .ldVxDt x ∧ Instr.skp 1 ≠ .ldDtVx x ∧ Instr.skp 1 ≠ .ldStVx x :=
  ⟨landed (exec (.skp 1) (regs [(1, 7)])), rfl, by decide⟩
theorem witness_EnvironmentCommutesWithOtherInstructions_key : ∃ t, exec (.ldVxDt 1) State.reset = .next t ∧
    ∀ x, Instr.ldVxDt 1 ≠ .skp x ∧ Instr.ldVxDt 1 ≠ .sknp x ∧ Instr.ldVxDt 1 ≠ .ldVxKey x :=
  ⟨landed (exec (.ldVxDt 1) State.reset), rfl, by decide⟩

/-- A state that meets the invariant: nothing recorded, memory and `SP` as given. -/
theorem inv_of_clear {s : State} (hm : Memory.wf s.mem) (hs : s.sp.toNat ≤ 15) (hf : s.fault = FaultRecord.clear) :
    Inv s := by
  refine ⟨hm, hs, ?_⟩
  rw [hf]
  simp [LegalRecord, FaultRecord.clear]

/-- A full call stack, a byte in memory and a call that overflows. -/
theorem witness_EveryStepKeepsTheInvariant : ∃ s t, Inv s ∧ step s = .next t ∧ t.fault.kind = .stackOverflow :=
  ⟨bytes 0x200 [0x22, 0x00] (stacked 15 0x200), landed (step (bytes 0x200 [0x22, 0x00] (stacked 15 0x200))),
    inv_of_clear (by decide) (by decide) rfl, rfl, by decide⟩
theorem witness_NoLegalStateStopsTheModel : ∃ s, Inv s ∧ s.sp = 15 :=
  ⟨stacked 15 0x200, inv_of_clear (by decide) (by decide) rfl, rfl⟩

end Sys2Proof.Tests
end

