-- ==== Sys2Proof/Proofs/Fields.lean ====
section
/-! The operand fields of a word as parts of one another (30_encoding.md R91): adjacent bit ranges join, so `kk` and `nnn`
are the nibbles they cover. -/

namespace Sys2Proof

theorem kkOf_eq_yOf_append_nOf (w : Word) : kkOf w = yOf w ++ nOf w :=
  (BitVec.extractLsb'_append_extractLsb'_eq_extractLsb' (x := w) (by decide : 4 = 0 + 4)).symm

theorem nnnOf_eq_xOf_append_kkOf (w : Word) : nnnOf w = xOf w ++ kkOf w :=
  (BitVec.extractLsb'_append_extractLsb'_eq_extractLsb' (x := w) (by decide : 8 = 0 + 8)).symm

theorem nnnOf_eq_xOf_append_yOf_append_nOf (w : Word) : nnnOf w = xOf w ++ yOf w ++ nOf w := by
  rw [nnnOf_eq_xOf_append_kkOf, kkOf_eq_yOf_append_nOf, BitVec.append_assoc]
  rfl

/-- Settles O4: each field's position is its number lemma, and each overlap joins adjacent bit ranges. -/
theorem fieldsStandAtTheirBits : Obligations.FieldsStandAtTheirBits := fun w =>
  ⟨famOf_toNat w, xOf_toNat w, yOf_toNat w, nOf_toNat w, kkOf_toNat w, nnnOf_toNat w,
    kkOf_eq_yOf_append_nOf w, nnnOf_eq_xOf_append_yOf_append_nOf w⟩

end Sys2Proof
end

