-- ==== Sys2Proof/Proofs/Flow.lean ====
section
/-! Control transfer (40_flow.md): a jump and a skip are one write of `PC`, which no frame restricts, so each statement is
the instruction's answer, the value written, and the frame of that write. -/

namespace Sys2Proof.Machine

/-! ### Frames of a write of `PC` -/

theorem Frame.refl (m : MayChange) (s : State) : Frame m s s where
  regs _ _ := rfl
  i _ := rfl
  sp _ := rfl
  entries _ _ := rfl
  dt _ := rfl
  st _ := rfl
  fb _ := rfl
  key := rfl
  bytes _ _ := rfl
  fault _ := rfl
  draws _ := rfl
  agenda := rfl

/-- `State.goto` keeps every field a frame speaks of as it stands. -/
theorem Frame.goto {m : MayChange} {s t : State} (h : Frame m s t) (w : Word) : Frame m s (State.goto t w) :=
  { h with }

theorem Frame.skipIf {m : MayChange} {s t : State} (h : Frame m s t) (c : Bool) : Frame m s (State.skipIf t c) :=
  h.goto _

/-! ### The values written to `PC` -/

@[simp] theorem addrWord_toNat (nnn : Addr12) : (addrWord nnn).toNat = nnn.toNat :=
  BitVec.toNat_setWidth_of_le (by decide)

theorem State.pc_skipIf_beq (s : State) (a b : Byte) :
    (State.skipIf s (a == b)).pc = if a = b then s.pc + 4 else s.pc + 2 := by
  simp only [State.pc_skipIf, beq_iff_eq]

theorem State.pc_skipIf_bne (s : State) (a b : Byte) :
    (State.skipIf s (a != b)).pc = if a = b then s.pc + 2 else s.pc + 4 := by
  simp only [State.pc_skipIf, bne_iff_ne, ne_eq, ite_not]

/-! ### What the instructions answer -/

theorem exec_jp (nnn : Addr12) (s : State) : exec (.jp nnn) s = .next (State.goto s (addrWord nnn)) := rfl

theorem exec_seImm (x : Reg) (kk : Byte) (s : State) :
    exec (.seImm x kk) s = .next (State.skipIf s (State.readV s x == kk)) := rfl

theorem exec_sneImm (x : Reg) (kk : Byte) (s : State) :
    exec (.sneImm x kk) s = .next (State.skipIf s (State.readV s x != kk)) := rfl

theorem exec_seReg (x y : Reg) (s : State) :
    exec (.seReg x y) s = .next (State.skipIf s (State.readV s x == State.readV s y)) := rfl

theorem exec_sneReg (x y : Reg) (s : State) :
    exec (.sneReg x y) s = .next (State.skipIf s (State.readV s x != State.readV s y)) := rfl

/-! ### The statements -/

/-- Settles O8: 1nnn only writes `PC`, with the address field widened. -/
theorem jumpTakesItsAddressField : Obligations.JumpTakesItsAddressField := fun s nnn =>
  ⟨_, exec_jp nnn s, addrWord_toNat nnn, (Frame.refl {} s).goto _⟩

/-- Settles O10: 3xkk skips on equality, 4xkk on its negation, and either way only `PC` is written. -/
theorem skipsOnImmediateComparison : Obligations.SkipsOnImmediateComparison := fun s x kk =>
  ⟨⟨_, exec_seImm x kk s, State.pc_skipIf_beq s _ _, (Frame.refl {} s).skipIf _⟩,
    ⟨_, exec_sneImm x kk s, State.pc_skipIf_bne s _ _, (Frame.refl {} s).skipIf _⟩⟩

/-- Settles O11: 5xy0 skips on equality, 9xy0 on its negation, and either way only `PC` is written. -/
theorem skipsOnRegisterComparison : Obligations.SkipsOnRegisterComparison := fun s x y =>
  ⟨⟨_, exec_seReg x y s, State.pc_skipIf_beq s _ _, (Frame.refl {} s).skipIf _⟩,
    ⟨_, exec_sneReg x y s, State.pc_skipIf_bne s _ _, (Frame.refl {} s).skipIf _⟩⟩

end Sys2Proof.Machine
end

