-- ==== Sys2Proof/Proofs/LoadAlu.lean ====
section
/-! Register load and arithmetic (41_load_alu.md): an instruction without a flag is one `State.writeBack`, so what that
operation does is said once, and each statement adds only the value written. -/

namespace Sys2Proof.Machine

/-! ### Writing a register back -/

@[simp] theorem State.readV_setV_self (s : State) (x : Reg) (b : Byte) : State.readV (State.setV s x b) x = b := by
  rw [State.readV_setV, if_pos rfl]

/-- Writing a register that may change keeps the frame. -/
theorem Frame.setV {m : MayChange} {s t : State} (h : Frame m s t) {x : Reg} (hx : x ∈ m.regs) (b : Byte) :
    Frame m s (State.setV t x b) :=
  { h with
    regs := fun r hr => by
      have hrx : r ≠ x := fun e => hr (e ▸ hx)
      rw [State.readV_setV, if_neg hrx, h.regs r hr] }

theorem Frame.advance {m : MayChange} {s t : State} (h : Frame m s t) : Frame m s (State.advance t) :=
  h.goto _

/-- All a write back does: the register takes the byte, `PC` passes the instruction, and the rest stays (R140). -/
theorem State.writeBack_spec (s : State) (x : Reg) (r : Byte) :
    ∃ t, State.writeBack s x r = .next t ∧ State.readV t x = r ∧ t.pc = s.pc + 2 ∧ Frame { regs := [x] } s t :=
  have hx : x ∈ [x] := List.mem_singleton_self x
  ⟨State.advance (State.setV s x r), rfl, State.readV_setV_self s x r, rfl, ((Frame.refl _ s).setV hx r).advance⟩

/-! ### The sum written back -/

theorem addWrap_toNat (a b : Byte) : (addWrap a b).toNat = (a.toNat + b.toNat) % 256 := by
  rw [addWrap, rawSum, BitVec.toNat_ofNat, Nat.mod_mod]

/-! ### What the instructions answer -/

theorem exec_ldImm (x : Reg) (kk : Byte) (s : State) : exec (.ldImm x kk) s = State.writeBack s x kk := rfl

theorem exec_ldReg (x y : Reg) (s : State) : exec (.ldReg x y) s = State.writeBack s x (State.readV s y) := rfl

theorem exec_addImm (x : Reg) (kk : Byte) (s : State) :
    exec (.addImm x kk) s = State.writeBack s x (addWrap (State.readV s x) kk) := rfl

/-! ### The statements -/

/-- Settles O13: both loads write back one byte, the immediate or the register as it stood before the step. -/
theorem loadsSetOneRegister : Obligations.LoadsSetOneRegister := by
  intro s x y kk
  rw [exec_ldImm, exec_ldReg]
  exact ⟨State.writeBack_spec s x kk, State.writeBack_spec s x (State.readV s y)⟩

/-- Settles O14: 7xkk writes back the wrapped sum and, with `x` the only register in its frame, no flag. -/
theorem addImmediateWrapsWithoutFlag : Obligations.AddImmediateWrapsWithoutFlag := by
  intro s x kk
  obtain ⟨t, ht, hv, hpc, hframe⟩ := State.writeBack_spec s x (addWrap (State.readV s x) kk)
  have hsum : (State.readV t x).toNat = ((State.readV s x).toNat + kk.toNat) % 256 := by
    rw [hv, addWrap_toNat]
  exact ⟨t, (exec_addImm x kk s).trans ht, hsum, hpc, hframe⟩

end Sys2Proof.Machine
end

