-- ==== Sys2Proof/Proofs/IndexMemory.lean ====
section
/-! The index register (42_index_memory.md): Annn and Fx1E are each one `State.writeIndex`, so what that operation does is
said once, and each statement adds only the number of the word written. -/

namespace Sys2Proof.Machine

/-! ### Writing `I` -/

/-- Writing `I`, where `I` may change, keeps the frame. -/
theorem Frame.setI {m : MayChange} {s t : State} (h : Frame m s t) (hi : m.i = true) (w : Word) :
    Frame m s (State.setI t w) :=
  { h with i := fun hne => absurd (hi.symm.trans hne) (by decide) }

/-- All a write of `I` does: `I` takes the word, `PC` passes the instruction, and the rest stays (R171, R172). -/
theorem State.writeIndex_spec (s : State) (w : Word) :
    ∃ t, State.writeIndex s w = .next t ∧ t.i = w ∧ t.pc = s.pc + 2 ∧ Frame { i := true } s t :=
  ⟨State.advance (State.setI s w), rfl, rfl, rfl, ((Frame.refl _ s).setI rfl w).advance⟩

/-! ### The sum written to `I` -/

@[simp] theorem State.wideV_toNat (s : State) (x : Reg) : (State.wideV s x).toNat = (State.readV s x).toNat :=
  BitVec.toNat_setWidth_of_le (by decide)

/-! ### What the instructions answer -/

theorem exec_ldI (nnn : Addr12) (s : State) : exec (.ldI nnn) s = State.writeIndex s (addrWord nnn) := rfl

theorem exec_addI (x : Reg) (s : State) : exec (.addI x) s = State.writeIndex s (s.i + State.wideV s x) := rfl

/-! ### The statements -/

/-- Settles O21: Annn writes the address field, widened, and Fx1E the sum of `I` and the widened register, which `Word`
takes modulo 65536; with `I` alone in the frame, neither changes a flag or the fault record. -/
theorem indexIsLoadedAndAddedTo : Obligations.IndexIsLoadedAndAddedTo := by
  intro s x nnn
  constructor
  · obtain ⟨t, ht, hi, hpc, hframe⟩ := State.writeIndex_spec s (addrWord nnn)
    have hfield : t.i.toNat = nnn.toNat := by rw [hi, addrWord_toNat]
    exact ⟨t, (exec_ldI nnn s).trans ht, hfield, hpc, hframe⟩
  · obtain ⟨t, ht, hi, hpc, hframe⟩ := State.writeIndex_spec s (s.i + State.wideV s x)
    have hsum : t.i.toNat = (s.i.toNat + (State.readV s x).toNat) % 65536 := by
      rw [hi, BitVec.toNat_add, State.wideV_toNat]
    exact ⟨t, (exec_addI x s).trans ht, hsum, hpc, hframe⟩

end Sys2Proof.Machine
end

