-- ==== Sys2Proof/Proofs/TimerKey.lean ====
section
/-! Keypad and timers (44_timer_key.md): Fx07 is a `State.writeBack` of the delay timer, so what that operation does says
all that the instruction does. -/

namespace Sys2Proof.Machine

theorem exec_ldVxDt (x : Reg) (s : State) : exec (.ldVxDt x) s = State.writeBack s x s.dt := rfl

/-- Settles O36: Fx07 writes back the delay timer; the frame, in which only `x` may change, keeps the timer itself. -/
theorem delayTimerIsRead : Obligations.DelayTimerIsRead := by
  intro s x
  rw [exec_ldVxDt]
  exact State.writeBack_spec s x s.dt

end Sys2Proof.Machine
end

