-- ==== Sys2Proof/Proofs/Reset.lean ====
section
/-! Reset (70_reset_and_hazards.md): a scheduled transaction is what the step performs, `RESET` enters at the constant
address `Config.progBase` whatever is loaded, and a fetch there is inside memory. -/

namespace Sys2Proof.Machine

/-- With a transaction scheduled, a step performs it with that transaction off the schedule (R40). -/
theorem step_of_agenda_cons {s : State} {tr : Transaction} {rest : List Transaction} (h : s.agenda = tr :: rest) :
    step s = transact tr { s with agenda := rest } := by
  rw [step, nextTransaction, h]

theorem transact_reset (image : List (Addr12 × Byte)) (s : State) :
    transact (.reset image) s = .next (State.relaunch s image) := rfl

@[simp] theorem State.pc_relaunch (s : State) (image : List (Addr12 × Byte)) :
    (State.relaunch s image).pc = Config.progBase := rfl

/-- With `PC` on two bytes of memory, the fetch answers the word of those bytes (R65, R66). -/
theorem State.fetch_of_pc_le {s : State} (h : s.pc.toNat + 2 ≤ Config.memSize) :
    State.fetch s = .ok (wordOfBytes (State.byteAt s s.pc.toNat) (State.byteAt s (s.pc.toNat + 1))) := by
  obtain ⟨_, hfetch⟩ | ⟨hout, _⟩ := State.fetch_cases s
  · exact hfetch
  · exact absurd hout (Nat.not_lt.mpr h)

/-- Settles O52: whatever the image, `RESET` leaves `PC` at the constant 0x200, and the fetch there is inside memory. -/
theorem firstFetchAfterResetIsAt200 : Obligations.FirstFetchAfterResetIsAt200 := by
  intro s image rest hagenda
  have hstep := (step_of_agenda_cons hagenda).trans (transact_reset image _)
  have hpc := State.pc_relaunch { s with agenda := rest } image
  have hinside : (State.relaunch { s with agenda := rest } image).pc.toNat + 2 ≤ Config.memSize := by
    rw [hpc]
    decide
  exact ⟨_, hstep, hpc, State.fetch_of_pc_le hinside⟩

end Sys2Proof.Machine
end

section
/-! Decoding and encoding (30_encoding.md): the decoder reads back what the encoder wrote from the fields of the word, a
word is put together from its own fields, and a word that matches a row of the opcode map is the word of an
instruction. -/

namespace Sys2Proof

/-! ### The decoder on the encoder's words -/

/-- Settles O1: the fields of an encoded word are the operands it was made of, so each lookup of the decoder, on the
family and below it, lands on the instruction's own arm. -/
theorem decodeOfEncodeIsTheInstruction : Obligations.DecodeOfEncodeIsTheInstruction := by
  intro i
  cases i with
  | cls | ret => decide
  | jp nnn | call nnn | ldI nnn | jpV0 nnn =>
    simp [encode, decode, famOf_encodeA, nnnOf_encodeA]
  | seImm x kk | sneImm x kk | ldImm x kk | addImm x kk | rnd x kk =>
    simp [encode, decode, famOf_encodeXK, xOf_encodeXK, kkOf_encodeXK]
  | seReg x y | sneReg x y =>
    simp [encode, decode, decodeNeedsZero, famOf_encodeXYN, xOf_encodeXYN, yOf_encodeXYN, nOf_encodeXYN]
  | ldReg x y | orReg x y | andReg x y | xorReg x y | addReg x y | subReg x y | shr x y | subnReg x y | shl x y =>
    simp [encode, decode, decodeFam8, famOf_encodeXYN, xOf_encodeXYN, yOf_encodeXYN, nOf_encodeXYN]
  | drw x y n =>
    simp [encode, decode, famOf_encodeXYN, xOf_encodeXYN, yOf_encodeXYN, nOf_encodeXYN]
  | skp x | sknp x =>
    simp [encode, decode, decodeFamE, famOf_encodeXK, xOf_encodeXK, kkOf_encodeXK]
  | ldVxDt x | ldVxKey x | ldDtVx x | ldStVx x | addI x | ldFont x | ldBcd x | storeRegs x | loadRegs x =>
    simp [encode, decode, decodeFamF, famOf_encodeXK, xOf_encodeXK, kkOf_encodeXK]

/-! ### A word from its fields -/

theorem encodeA_of_famOf {w : Word} {f : BitVec 4} (hf : famOf w = f) : encodeA f (nnnOf w) = w := by
  apply BitVec.eq_of_toNat_eq
  rw [encodeA_toNat, ← hf, famOf_toNat, nnnOf_toNat]
  omega

theorem encodeXK_of_fields {w : Word} {f : BitVec 4} {kk : Byte} (hf : famOf w = f) (hk : kkOf w = kk) :
    encodeXK f (xOf w) kk = w := by
  apply BitVec.eq_of_toNat_eq
  rw [encodeXK_toNat, ← hf, ← hk, famOf_toNat, xOf_toNat, kkOf_toNat]
  omega

theorem encodeXYN_of_fields {w : Word} {f n : BitVec 4} (hf : famOf w = f) (hn : nOf w = n) :
    encodeXYN f (xOf w) (yOf w) n = w := by
  apply BitVec.eq_of_toNat_eq
  rw [encodeXYN_toNat, ← hf, ← hn, famOf_toNat, xOf_toNat, yOf_toNat, nOf_toNat]
  omega

/-! ### What a decoded word holds -/

theorem encode_of_decodeFam0 {w : Word} {i : Instr} (h : decodeFam0 w = .ok i) : encode i = w := by
  unfold decodeFam0 at h
  split at h
  · cases h; exact Eq.symm ‹_›
  · split at h
    · cases h; exact Eq.symm ‹_›
    · cases h

theorem encode_of_decodeFam8 {w : Word} {i : Instr} (hf : famOf w = 8) (h : decodeFam8 w = .ok i) : encode i = w := by
  unfold decodeFam8 at h
  split at h <;> cases h <;> exact encodeXYN_of_fields hf ‹_›

theorem encode_of_decodeFamE {w : Word} {i : Instr} (hf : famOf w = 0xE) (h : decodeFamE w = .ok i) : encode i = w := by
  unfold decodeFamE at h
  split at h <;> cases h <;> exact encodeXK_of_fields hf ‹_›

theorem encode_of_decodeFamF {w : Word} {i : Instr} (hf : famOf w = 0xF) (h : decodeFamF w = .ok i) : encode i = w := by
  unfold decodeFamF at h
  split at h <;> cases h <;> exact encodeXK_of_fields hf ‹_›

/-- Settles O2: each arm of the decoder names the family, and the sub-opcode where there is one, that its instruction's
encoding writes. -/
theorem encodeOfDecodeIsTheWord : Obligations.EncodeOfDecodeIsTheWord := by
  intro w i h
  unfold decode at h
  split at h
  case h_1 => exact encode_of_decodeFam0 h
  case h_6 hf | h_10 hf =>
    obtain ⟨hn, rfl⟩ := decodeNeedsZero_ok h
    exact encodeXYN_of_fields hf hn
  case h_9 hf => exact encode_of_decodeFam8 hf h
  case h_15 hf => exact encode_of_decodeFamE hf h
  case h_16 =>
    have hf : famOf w = 0xF := by
      clear h
      generalize famOf w = f at *
      revert f
      decide
    exact encode_of_decodeFamF hf h
  case h_14 hf => cases h; exact encodeXYN_of_fields hf rfl
  case h_2 hf | h_3 hf | h_11 hf | h_12 hf => cases h; exact encodeA_of_famOf hf
  case h_4 hf | h_5 hf | h_7 hf | h_8 hf | h_13 hf => cases h; exact encodeXK_of_fields hf rfl

/-! ### The decoder and the opcode map -/

/-- The decoder refuses a word in one way only, by its name. -/
theorem decode_cases (w : Word) : (∃ i, decode w = .ok i) ∨ decode w = .error (.unknownInstruction w) := by
  unfold decode
  split
  case h_1 => unfold decodeFam0; split_ifs <;> simp
  case h_6 | h_10 => unfold decodeNeedsZero; split <;> simp
  case h_9 => unfold decodeFam8; split <;> simp
  case h_15 => unfold decodeFamE; split <;> simp
  case h_16 => unfold decodeFamF; split <;> simp
  all_goals exact .inl ⟨_, rfl⟩

section Rows

variable {r : OpcodeRow} {w : Word}

theorem OpcodeRow.matchesWord_iff : r.matchesWord w = true ↔ w &&& r.mask = r.fixed := beq_iff_eq

theorem eq_fixed_of_matchesWord (hm : r.mask = 0xFFFF) (h : r.matchesWord w = true) : r.fixed = w := by
  rw [← OpcodeRow.matchesWord_iff.mp h, hm]
  exact BitVec.and_allOnes

/-- A field that lies under the row's mask is the row's own. -/
theorem extractLsb'_of_matchesWord {lo len : Nat} (hm : r.mask.extractLsb' lo len = BitVec.allOnes len)
    (h : r.matchesWord w = true) : w.extractLsb' lo len = r.fixed.extractLsb' lo len := by
  rw [← OpcodeRow.matchesWord_iff.mp h, BitVec.extractLsb'_and, hm, BitVec.and_allOnes]

theorem famOf_of_matchesWord (hm : famOf r.mask = 0xF) (h : r.matchesWord w = true) : famOf w = famOf r.fixed :=
  extractLsb'_of_matchesWord hm h

theorem nOf_of_matchesWord (hm : nOf r.mask = 0xF) (h : r.matchesWord w = true) : nOf w = nOf r.fixed :=
  extractLsb'_of_matchesWord hm h

theorem kkOf_of_matchesWord (hm : kkOf r.mask = 0xFF) (h : r.matchesWord w = true) : kkOf w = kkOf r.fixed :=
  extractLsb'_of_matchesWord hm h

end Rows

/-- A word that matches a row of the opcode map is the word of an instruction, whose operands are the word's fields. -/
theorem exists_encode_eq_of_mem_opcodeMap : ∀ r ∈ opcodeMap, ∀ w, r.matchesWord w = true → ∃ i, encode i = w := by
  simp only [opcodeMap, List.cons_append, List.nil_append, List.forall_mem_cons]
  exact ⟨
    fun w h => ⟨.cls, eq_fixed_of_matchesWord rfl h⟩,
    fun w h => ⟨.ret, eq_fixed_of_matchesWord rfl h⟩,
    fun w h => ⟨.jp _, encodeA_of_famOf (famOf_of_matchesWord rfl h)⟩,
    fun w h => ⟨.call _, encodeA_of_famOf (famOf_of_matchesWord rfl h)⟩,
    fun w h => ⟨.seImm _ _, encodeXK_of_fields (famOf_of_matchesWord rfl h) rfl⟩,
    fun w h => ⟨.sneImm _ _, encodeXK_of_fields (famOf_of_matchesWord rfl h) rfl⟩,
    fun w h => ⟨.seReg _ _, encodeXYN_of_fields (famOf_of_matchesWord rfl h) (nOf_of_matchesWord rfl h)⟩,
    fun w h => ⟨.ldImm _ _, encodeXK_of_fields (famOf_of_matchesWord rfl h) rfl⟩,
    fun w h => ⟨.addImm _ _, encodeXK_of_fields (famOf_of_matchesWord rfl h) rfl⟩,
    fun w h => ⟨.ldReg _ _, encodeXYN_of_fields (famOf_of_matchesWord rfl h) (nOf_of_matchesWord rfl h)⟩,
    fun w h => ⟨.orReg _ _, encodeXYN_of_fields (famOf_of_matchesWord rfl h) (nOf_of_matchesWord rfl h)⟩,
    fun w h => ⟨.andReg _ _, encodeXYN_of_fields (famOf_of_matchesWord rfl h) (nOf_of_matchesWord rfl h)⟩,
    fun w h => ⟨.xorReg _ _, encodeXYN_of_fields (famOf_of_matchesWord rfl h) (nOf_of_matchesWord rfl h)⟩,
    fun w h => ⟨.addReg _ _, encodeXYN_of_fields (famOf_of_matchesWord rfl h) (nOf_of_matchesWord rfl h)⟩,
    fun w h => ⟨.subReg _ _, encodeXYN_of_fields (famOf_of_matchesWord rfl h) (nOf_of_matchesWord rfl h)⟩,
    fun w h => ⟨.shr _ _, encodeXYN_of_fields (famOf_of_matchesWord rfl h) (nOf_of_matchesWord rfl h)⟩,
    fun w h => ⟨.subnReg _ _, encodeXYN_of_fields (famOf_of_matchesWord rfl h) (nOf_of_matchesWord rfl h)⟩,
    fun w h => ⟨.shl _ _, encodeXYN_of_fields (famOf_of_matchesWord rfl h) (nOf_of_matchesWord rfl h)⟩,
    fun w h => ⟨.sneReg _ _, encodeXYN_of_fields (famOf_of_matchesWord rfl h) (nOf_of_matchesWord rfl h)⟩,
    fun w h => ⟨.ldI _, encodeA_of_famOf (famOf_of_matchesWord rfl h)⟩,
    fun w h => ⟨.jpV0 _, encodeA_of_famOf (famOf_of_matchesWord rfl h)⟩,
    fun w h => ⟨.rnd _ _, encodeXK_of_fields (famOf_of_matchesWord rfl h) rfl⟩,
    fun w h => ⟨.drw _ _ _, encodeXYN_of_fields (famOf_of_matchesWord rfl h) rfl⟩,
    fun w h => ⟨.skp _, encodeXK_of_fields (famOf_of_matchesWord rfl h) (kkOf_of_matchesWord rfl h)⟩,
    fun w h => ⟨.sknp _, encodeXK_of_fields (famOf_of_matchesWord rfl h) (kkOf_of_matchesWord rfl h)⟩,
    fun w h => ⟨.ldVxDt _, encodeXK_of_fields (famOf_of_matchesWord rfl h) (kkOf_of_matchesWord rfl h)⟩,
    fun w h => ⟨.ldVxKey _, encodeXK_of_fields (famOf_of_matchesWord rfl h) (kkOf_of_matchesWord rfl h)⟩,
    fun w h => ⟨.ldDtVx _, encodeXK_of_fields (famOf_of_matchesWord rfl h) (kkOf_of_matchesWord rfl h)⟩,
    fun w h => ⟨.ldStVx _, encodeXK_of_fields (famOf_of_matchesWord rfl h) (kkOf_of_matchesWord rfl h)⟩,
    fun w h => ⟨.addI _, encodeXK_of_fields (famOf_of_matchesWord rfl h) (kkOf_of_matchesWord rfl h)⟩,
    fun w h => ⟨.ldFont _, encodeXK_of_fields (famOf_of_matchesWord rfl h) (kkOf_of_matchesWord rfl h)⟩,
    fun w h => ⟨.ldBcd _, encodeXK_of_fields (famOf_of_matchesWord rfl h) (kkOf_of_matchesWord rfl h)⟩,
    fun w h => ⟨.storeRegs _, encodeXK_of_fields (famOf_of_matchesWord rfl h) (kkOf_of_matchesWord rfl h)⟩,
    fun w h => ⟨.loadRegs _, encodeXK_of_fields (famOf_of_matchesWord rfl h) (kkOf_of_matchesWord rfl h)⟩,
    fun _ hr => absurd hr List.not_mem_nil⟩

open Laws in
/-- The word of an instruction matches the instruction's row, which is one of the map's. -/
theorem encodedInItsRow : ∀ i : Instr, EncodedInItsRow.Statement i
  | .cls => EncodedInItsRow.cls
  | .ret => EncodedInItsRow.ret
  | .jp a => EncodedInItsRow.jp a
  | .call a => EncodedInItsRow.call a
  | .seImm x k => EncodedInItsRow.seImm x k
  | .sneImm x k => EncodedInItsRow.sneImm x k
  | .seReg x y => EncodedInItsRow.seReg x y
  | .ldImm x k => EncodedInItsRow.ldImm x k
  | .addImm x k => EncodedInItsRow.addImm x k
  | .ldReg x y => EncodedInItsRow.ldReg x y
  | .orReg x y => EncodedInItsRow.orReg x y
  | .andReg x y => EncodedInItsRow.andReg x y
  | .xorReg x y => EncodedInItsRow.xorReg x y
  | .addReg x y => EncodedInItsRow.addReg x y
  | .subReg x y => EncodedInItsRow.subReg x y
  | .shr x y => EncodedInItsRow.shr x y
  | .subnReg x y => EncodedInItsRow.subnReg x y
  | .shl x y => EncodedInItsRow.shl x y
  | .sneReg x y => EncodedInItsRow.sneReg x y
  | .ldI a => EncodedInItsRow.ldI a
  | .jpV0 a => EncodedInItsRow.jpV0 a
  | .rnd x k => EncodedInItsRow.rnd x k
  | .drw x y n => EncodedInItsRow.drw x y n
  | .skp x => EncodedInItsRow.skp x
  | .sknp x => EncodedInItsRow.sknp x
  | .ldVxDt x => EncodedInItsRow.ldVxDt x
  | .ldVxKey x => EncodedInItsRow.ldVxKey x
  | .ldDtVx x => EncodedInItsRow.ldDtVx x
  | .ldStVx x => EncodedInItsRow.ldStVx x
  | .addI x => EncodedInItsRow.addI x
  | .ldFont x => EncodedInItsRow.ldFont x
  | .ldBcd x => EncodedInItsRow.ldBcd x
  | .storeRegs x => EncodedInItsRow.storeRegs x
  | .loadRegs x => EncodedInItsRow.loadRegs x

/-- Two rows of the opcode map differ on a bit that both fix. -/
theorem opcodeRow_eq_of_common_bits :
    ∀ r ∈ opcodeMap, ∀ q ∈ opcodeMap, r.fixed &&& q.mask = q.fixed &&& r.mask → r = q := by decide

/-- No two rows of the opcode map match the same word (R96). -/
theorem opcodeRow_unique {r q : OpcodeRow} {w : Word} (hr : r ∈ opcodeMap) (hq : q ∈ opcodeMap)
    (hrw : r.matchesWord w = true) (hqw : q.matchesWord w = true) : r = q := by
  refine opcodeRow_eq_of_common_bits r hr q hq ?_
  calc r.fixed &&& q.mask = w &&& r.mask &&& q.mask := by rw [OpcodeRow.matchesWord_iff.mp hrw]
    _ = w &&& q.mask &&& r.mask := by ac_rfl
    _ = q.fixed &&& r.mask := by rw [OpcodeRow.matchesWord_iff.mp hqw]

theorem legalWord_iff {w : Word} : LegalWord w = true ↔ ∃ r ∈ opcodeMap, r.matchesWord w = true := List.any_eq_true

theorem legalWord_encode (i : Instr) : LegalWord (encode i) = true :=
  legalWord_iff.mpr ⟨i.row, encodedInItsRow i⟩

/-- The words the decoder accepts are the legal ones. -/
theorem legalWord_iff_exists_decode {w : Word} : LegalWord w = true ↔ ∃ i, decode w = .ok i := by
  constructor
  · intro h
    obtain ⟨r, hr, hw⟩ := legalWord_iff.mp h
    obtain ⟨i, rfl⟩ := exists_encode_eq_of_mem_opcodeMap r hr w hw
    exact ⟨i, decodeOfEncodeIsTheInstruction i⟩
  · rintro ⟨i, h⟩
    rw [← encodeOfDecodeIsTheWord w i h]
    exact legalWord_encode i

theorem decode_of_not_legalWord {w : Word} (h : LegalWord w = false) : decode w = .error (.unknownInstruction w) := by
  obtain hok | herror := decode_cases w
  · rw [legalWord_iff_exists_decode.mpr hok] at h
    contradiction
  · exact herror

/-- Settles O3: an accepted word is an encoded instruction, which stands in its own row, and no other row has the word;
a word that is not accepted is refused by name. -/
theorem decoderAcceptsExactlyTheOpcodeMap : Obligations.DecoderAcceptsExactlyTheOpcodeMap := by
  intro w
  refine ⟨fun h => ?_, decode_of_not_legalWord⟩
  obtain ⟨i, hi⟩ := legalWord_iff_exists_decode.mp h
  obtain ⟨hmem, hmatch⟩ := encodedInItsRow i
  rw [encodeOfDecodeIsTheWord w i hi] at hmatch
  exact ⟨i, hi, hmatch, fun r hr hrw => opcodeRow_unique hr hmem hrw hmatch⟩

/-- Settles O5: each word is a closed term the decoder evaluates. -/
theorem wordsOfThePatternsDecode : Obligations.WordsOfThePatternsDecode := by
  unfold Obligations.WordsOfThePatternsDecode
  decide

end Sys2Proof
end

section
/-! Memory accesses (20_memory.md): inside memory an access answers the bytes or stores them, outside it answers the
lowest address above 0xFFF, and a fetch is the access of two bytes at `PC`. -/

namespace Sys2Proof.Machine

/-! ### What an access answers -/

section

variable {s : State}

theorem State.memRead_of_inside {a n : Nat} (h : n = 0 ∨ a + n ≤ 0x1000) :
    State.memRead s a n = .ok (Memory.readAll s.mem a n) :=
  if_pos ((inRange_iff a n).mpr h)

theorem State.memRead_of_outside {a n : Nat} (hn : n ≠ 0) (h : 0x1000 < a + n) :
    State.memRead s a n = .error (lowestOutside a) :=
  if_neg fun hin => ((inRange_iff a n).mp hin).elim hn (Nat.not_le.mpr h)

theorem State.memWrite_of_inside {a : Nat} {bs : List Byte} (h : a + bs.length ≤ 0x1000) :
    State.memWrite s a bs = .ok { s with mem := Memory.writeAll s.mem a bs } :=
  if_pos ((inRange_iff a bs.length).mpr (.inr h))

theorem State.memWrite_of_outside {a : Nat} {bs : List Byte} (hbs : bs.length ≠ 0) (h : 0x1000 < a + bs.length) :
    State.memWrite s a bs = .error (lowestOutside a) :=
  if_neg fun hin => ((inRange_iff a bs.length).mp hin).elim hbs (Nat.not_le.mpr h)

theorem State.fetch_of_pc_le_FFE (h : s.pc.toNat ≤ 0xFFE) :
    State.fetch s = .ok (wordOfBytes (State.byteAt s s.pc.toNat) (State.byteAt s (s.pc.toNat + 1))) :=
  State.fetch_of_pc_le (Nat.add_le_add_right h 2)

theorem State.fetch_of_FFE_lt_pc (h : 0xFFE < s.pc.toNat) : State.fetch s = .error (lowestOutside s.pc.toNat) := by
  obtain ⟨hin, _⟩ | ⟨_, e⟩ := State.fetch_cases s
  · exact absurd hin (Nat.not_le.mpr (Nat.add_lt_add_right h 2))
  · exact e

end

/-! ### The bytes after a write -/

theorem Memory.read_writeAll_of_lt {m : Memory} {a k : Nat} {bs : List Byte} (h : k < bs.length) :
    Memory.read (Memory.writeAll m a bs) (a + k) = bs[k] := by
  rw [Memory.read_writeAll, dif_pos ⟨Nat.le_add_right a k, by omega⟩]
  simp only [Nat.add_sub_cancel_left]

theorem Memory.read_writeAll_of_outside {m : Memory} {a c : Nat} {bs : List Byte} (h : c < a ∨ a + bs.length ≤ c) :
    Memory.read (Memory.writeAll m a bs) c = Memory.read m c := by
  rw [Memory.read_writeAll, dif_neg (by omega)]

/-! ### The statements -/

/-- Settles O28: no byte is read as the empty list, and else the access lies inside memory or its last byte does not. -/
theorem memReadGivesTheBytesOrTheAddress : Obligations.MemReadGivesTheBytesOrTheAddress := by
  intro s a n
  refine ⟨?_, fun hn h => State.memRead_of_outside hn (by omega), fun hn h => ?_⟩
  · rintro rfl
    exact State.memRead_of_inside (.inl rfl)
  · exact ⟨_, State.memRead_of_inside (.inr (by omega)), Memory.length_readAll _ _ _,
      Memory.getElem?_readAll s.mem a n⟩

/-- Settles O29: outside nothing is stored; inside the bytes stand at their addresses and every other byte is kept. -/
theorem memWriteWritesAllOrNothing : Obligations.MemWriteWritesAllOrNothing := by
  intro s a bs hbs
  have hlen : bs.length ≠ 0 := mt List.eq_nil_of_length_eq_zero hbs
  refine ⟨fun h => State.memWrite_of_outside hlen (by omega), fun h => ?_⟩
  refine ⟨_, State.memWrite_of_inside (by omega), fun k hk => ?_, fun c hc => ?_, rfl⟩
  · rw [List.getElem?_eq_getElem hk, ← Memory.read_writeAll_of_lt hk]
    rfl
  · exact Memory.read_writeAll_of_outside hc

/-- Settles O30: the fetch joins the two bytes at `PC`, the first as the high one, whatever the parity of `PC`. -/
theorem fetchIsBigEndianAtAnyAddress : Obligations.FetchIsBigEndianAtAnyAddress := fun _ =>
  ⟨fun h => ⟨_, State.fetch_of_pc_le_FFE h, wordOfBytes_toNat _ _⟩, State.fetch_of_FFE_lt_pc⟩

end Sys2Proof.Machine
end

section
/-! Calls, returns and the computed jump (40_flow.md): 00EE and 2nnn each fault, move the stack by one entry or, past
the last entry, stop the model; the cases are told apart by `SP` alone. -/

namespace Sys2Proof.Machine

/-! ### What 00EE and 2nnn answer -/

section

variable {s : State}

theorem exec_ret_of_empty (h : s.sp = 0) : exec .ret s = .next (State.raise s .stackUnderflow (encode .ret) 0) :=
  if_pos h

theorem exec_ret_of_entry (h0 : s.sp ≠ 0) (h : s.sp.toNat < 16) :
    exec .ret s = .next (State.goto { s with sp := s.sp - 1 } (s.stack[s.sp.toNat] + 2)) := by
  simp only [exec, execRet, if_neg h0, State.pop, dif_pos h]

theorem exec_ret_of_no_entry (h : 16 ≤ s.sp.toNat) : exec .ret s = .fault (.noStackEntry s.sp) := by
  have h0 : s.sp ≠ 0 := by rintro e; simp [e] at h
  simp only [exec, execRet, if_neg h0, State.pop, dif_neg (Nat.not_lt.mpr h)]

theorem exec_call_of_full (nnn : Addr12) (h : s.sp = 15) :
    exec (.call nnn) s = .next (State.raise s .stackOverflow (encode (.call nnn)) 0) :=
  if_pos h

theorem exec_call_of_room (nnn : Addr12) (h : s.sp.toNat + 1 < 16) :
    exec (.call nnn) s = .next
      (State.goto { s with stack := s.stack.set (s.sp.toNat + 1) s.pc h, sp := s.sp + 1 } (addrWord nnn)) := by
  have h15 : s.sp ≠ 15 := by rintro e; simp [e] at h
  simp only [exec, execCall, if_neg h15, State.push, dif_pos h]

theorem exec_call_of_no_entry (nnn : Addr12) (h : 16 ≤ s.sp.toNat) :
    exec (.call nnn) s = .fault (.noStackEntry s.sp) := by
  have h15 : s.sp ≠ 15 := by rintro e; simp [e] at h
  have hroom : ¬s.sp.toNat + 1 < Config.stackEntries := Nat.not_lt.mpr (Nat.le_succ_of_le h)
  simp only [exec, execCall, if_neg h15, State.push, dif_neg hroom]

/-! ### `SP` after a push and a pop -/

theorem State.sp_add_one_toNat (h : s.sp.toNat < 255) : (s.sp + 1).toNat = s.sp.toNat + 1 := by
  bv_omega

theorem State.sp_sub_one_toNat (h : 0 < s.sp.toNat) : (s.sp - 1).toNat = s.sp.toNat - 1 := by
  bv_omega

end

/-! ### Frames of the call stack -/

/-- A change of `SP`, where `SP` may change, keeps the frame. -/
theorem Frame.setSp {m : MayChange} {s t : State} (h : Frame m s t) (hsp : m.sp = true) (b : BitVec 8) :
    Frame m s { t with sp := b } :=
  { h with sp := fun hne => absurd (hsp.symm.trans hne) (by decide) }

/-- Writing an entry that may change keeps the frame. -/
theorem Frame.setEntry {m : MayChange} {s t : State} (h : Frame m s t) {k : Nat} (hk : k < 16) (hm : k ∈ m.entries)
    (w : Word) : Frame m s { t with stack := t.stack.set k w hk } :=
  { h with
    entries := fun j hj => by
      have hkj : k ≠ j := fun e => hj (e ▸ hm)
      rw [Vector.getElem?_set_ne _ hkj, h.entries j hj] }

/-! ### The computed jump -/

/-- The sum of the address field and a register stays below 65536. -/
theorem toNat_addrWord_add_wideV (s : State) (nnn : Addr12) (x : Reg) :
    (addrWord nnn + State.wideV s x).toNat = nnn.toNat + (State.readV s x).toNat := by
  rw [BitVec.toNat_add, addrWord_toNat, State.wideV_toNat]
  omega

theorem exec_jpV0 (nnn : Addr12) (s : State) :
    exec (.jpV0 nnn) s = .next (State.goto s (addrWord nnn + State.wideV s 0)) := rfl

/-! ### The statements -/

/-- Settles O45: at the bounds of `SP` the answer is the state with its record written by `State.raise`. -/
theorem stackFaultsRecordTheInstruction : Obligations.StackFaultsRecordTheInstruction :=
  fun _ nnn => ⟨exec_call_of_full nnn, exec_ret_of_empty⟩

/-- Settles O6: the empty stack only raises; else `PC` and `SP` alone are written, from the entry at `SP`. -/
theorem returnGoesTwoPastThePoppedCall : Obligations.ReturnGoesTwoPastThePoppedCall := by
  intro s
  refine ⟨fun h => ⟨_, exec_ret_of_empty h, rfl, rfl⟩, fun h0 h => ?_⟩
  have hne : s.sp ≠ 0 := by rintro e; simp [e] at h0
  exact ⟨_, exec_ret_of_entry hne h, rfl, State.sp_sub_one_toNat h0, ((Frame.refl _ s).setSp rfl _).goto _⟩

/-- Settles O7: with room the entry above `SP` takes `PC`, and nothing else but `SP` and `PC` is written; the full stack
only raises. -/
theorem callPushesItsOwnAddress : Obligations.CallPushesItsOwnAddress := by
  intro s nnn
  refine ⟨fun h => ?_, fun h => ⟨_, exec_call_of_full nnn h, rfl, rfl⟩⟩
  have hroom : s.sp.toNat + 1 < 16 := by omega
  have hframe : Frame { sp := true, entries := [s.sp.toNat + 1] } s
      { s with stack := s.stack.set (s.sp.toNat + 1) s.pc hroom, sp := s.sp + 1 } :=
    ((Frame.refl _ s).setEntry hroom (List.mem_singleton_self _) s.pc).setSp rfl _
  exact ⟨_, exec_call_of_room nnn hroom, addrWord_toNat nnn, State.sp_add_one_toNat (by omega),
    Vector.getElem?_set_self hroom, hframe.goto _⟩

/-- Settles O9: Bnnn only writes `PC`, with a sum too small to wrap. -/
theorem computedJumpAddsRegisterZero : Obligations.ComputedJumpAddsRegisterZero := fun s nnn =>
  ⟨_, exec_jpV0 nnn s, toNat_addrWord_add_wideV s nnn 0, (Frame.refl {} s).goto _⟩

/-- Settles O12: the entry the return reads is the one the call wrote, and `SP` goes up by one and back. -/
theorem callThenReturnComesBackPastTheCall : Obligations.CallThenReturnComesBackPastTheCall := by
  intro s t u nnn hs hcall hsp hstack
  have hroom : s.sp.toNat + 1 < 16 := by omega
  have hnext := (exec_call_of_room nnn hroom).symm.trans hcall
  cases hnext
  have hu : u.sp.toNat = s.sp.toNat + 1 := by
    rw [hsp]
    exact State.sp_add_one_toNat (by omega)
  have hne : u.sp ≠ 0 := by rintro e; simp [e] at hu
  refine ⟨_, exec_ret_of_entry hne (by omega), ?_, ?_, hstack⟩
  · have hentry : u.stack[u.sp.toNat]'(by rw [hu]; exact hroom) = s.pc := by
      simp only [hstack, hu, State.stack_goto, Vector.getElem_set_self]
    exact congrArg (· + 2) hentry
  · change u.sp - 1 = s.sp
    rw [hsp]
    exact BitVec.add_sub_cancel s.sp 1

end Sys2Proof.Machine
end

section
/-! Logic, arithmetic with the flag, and the random byte (41_load_alu.md): an instruction with a flag writes `V[x]` and
`VF` in the order of its row, so what each order leaves in the two registers is said once, and each statement adds the
number its result and its flag spell. -/

namespace Sys2Proof.Machine

/-! ### The two orders of result and flag -/

theorem Frame.setFlag {m : MayChange} {s t : State} (h : Frame m s t) (hf : VF ∈ m.regs) (c : Bool) :
    Frame m s (State.setFlag t c) :=
  h.setV hf _

theorem Frame.resultThenFlag {m : MayChange} {s t : State} (h : Frame m s t) {x : Reg} (hx : x ∈ m.regs)
    (hf : VF ∈ m.regs) (r : Byte) (c : Bool) : Frame m s (State.resultThenFlag t x r c) :=
  (h.setV hx r).setFlag hf c

theorem Frame.flagThenResult {m : MayChange} {s t : State} (h : Frame m s t) {x : Reg} (hx : x ∈ m.regs)
    (hf : VF ∈ m.regs) (r : Byte) (c : Bool) : Frame m s (State.flagThenResult t x r c) :=
  (h.setFlag hf c).setV hx r

/-- Counting a draw, where the count may change, keeps the frame. -/
theorem Frame.setDraws {m : MayChange} {s t : State} (h : Frame m s t) (hd : m.draws = true) (k : Nat) :
    Frame m s { t with draws := k } :=
  { h with draws := fun hne => absurd (hd.symm.trans hne) (by decide) }

/-- The flag is written last, so it stands in `VF` for every `x`, and the result in `V[x]` for `x` not F (R23). -/
theorem State.resultThenFlag_spec (s : State) (x : Reg) (r : Byte) (c : Bool) :
    State.readV (State.advance (State.resultThenFlag s x r c)) VF = flagByte c ∧
    (x ≠ VF → State.readV (State.advance (State.resultThenFlag s x r c)) x = r) ∧
    Frame { regs := [x, VF] } s (State.advance (State.resultThenFlag s x r c)) := by
  refine ⟨?_, fun hx => ?_, ?_⟩
  · rw [State.readV_advance, State.readV_resultThenFlag, if_pos rfl]
  · rw [State.readV_advance, State.readV_resultThenFlag, if_neg hx, if_pos rfl]
  · exact ((Frame.refl _ s).resultThenFlag (by simp) (by simp) r c).advance

/-- The result is written last, so it stands in `V[x]` for every `x`, and the flag in `VF` for `x` not F (R23). -/
theorem State.flagThenResult_spec (s : State) (x : Reg) (r : Byte) (c : Bool) :
    State.readV (State.advance (State.flagThenResult s x r c)) x = r ∧
    (x ≠ VF → State.readV (State.advance (State.flagThenResult s x r c)) VF = flagByte c) ∧
    Frame { regs := [x, VF] } s (State.advance (State.flagThenResult s x r c)) := by
  refine ⟨?_, fun hx => ?_, ?_⟩
  · rw [State.readV_advance, State.readV_flagThenResult, if_pos rfl]
  · rw [State.readV_advance, State.readV_flagThenResult, if_neg hx.symm, if_pos rfl]
  · exact ((Frame.refl _ s).flagThenResult (by simp) (by simp) r c).advance

/-! ### The results and flags as numbers -/

theorem flagByte_decide (p : Prop) [Decidable p] : flagByte (decide p) = if p then 1 else 0 := by
  simp only [flagByte, decide_eq_true_eq]

theorem flagByte_carryOut (a b : Byte) : flagByte (carryOut a b) = if a.toNat + b.toNat > 255 then 1 else 0 :=
  flagByte_decide _

theorem flagByte_strictlyGreater (a b : Byte) : flagByte (strictlyGreater a b) = if a.toNat > b.toNat then 1 else 0 :=
  flagByte_decide _

theorem subWrap_toNat (a b : Byte) : ((subWrap a b).toNat : Int) = (a.toNat - b.toNat : Int) % 256 := by
  rw [subWrap, BitVec.toNat_ofNat]
  omega

theorem shiftRight_toNat (a : Byte) : (shiftRight a).toNat = a.toNat / 2 := by
  rw [shiftRight, BitVec.toNat_ofNat]
  omega

theorem flagByte_outRight (a : Byte) : flagByte (outRight a) = if a.toNat % 2 = 1 then 1 else 0 := by
  rw [outRight, BitVec.getLsbD, Nat.testBit_zero, flagByte_decide]

theorem shiftLeft_toNat (a : Byte) : (shiftLeft a).toNat = a.toNat * 2 % 256 := by
  rw [shiftLeft, BitVec.toNat_ofNat, Nat.mod_mod]

theorem flagByte_outLeft (a : Byte) : flagByte (outLeft a) = if a.toNat ≥ 128 then 1 else 0 := by
  have hbit : outLeft a = decide (a.toNat ≥ 128) := BitVec.msb_eq_decide a
  rw [hbit, flagByte_decide]

/-- What a subtraction leaves, for any minuend and subtrahend: the difference last, the strict flag before it. -/
theorem State.subtract_spec (s : State) (x : Reg) (a b : Byte) :
    ((State.readV (State.advance (State.flagThenResult s x (subWrap a b) (strictlyGreater a b))) x).toNat : Int) =
        (a.toNat - b.toNat : Int) % 256 ∧
    (x ≠ VF → State.readV (State.advance (State.flagThenResult s x (subWrap a b) (strictlyGreater a b))) VF =
        if a.toNat > b.toNat then 1 else 0) ∧
    (State.advance (State.flagThenResult s x (subWrap a b) (strictlyGreater a b))).pc = s.pc + 2 ∧
    Frame { regs := [x, VF] } s (State.advance (State.flagThenResult s x (subWrap a b) (strictlyGreater a b))) := by
  obtain ⟨hresult, hflag, hframe⟩ := State.flagThenResult_spec s x (subWrap a b) (strictlyGreater a b)
  refine ⟨?_, fun hx => ?_, rfl, hframe⟩
  · rw [hresult, subWrap_toNat]
  · rw [hflag hx, flagByte_strictlyGreater]

/-! ### What the instructions answer -/

section Answers

variable (x y : Reg) (s : State)

theorem exec_orReg : exec (.orReg x y) s = State.writeBack s x (State.readV s x ||| State.readV s y) := rfl

theorem exec_andReg : exec (.andReg x y) s = State.writeBack s x (State.readV s x &&& State.readV s y) := rfl

theorem exec_xorReg : exec (.xorReg x y) s = State.writeBack s x (State.readV s x ^^^ State.readV s y) := rfl

theorem exec_addReg : exec (.addReg x y) s = .next (State.advance (State.resultThenFlag s x
    (addWrap (State.readV s x) (State.readV s y)) (carryOut (State.readV s x) (State.readV s y)))) := rfl

theorem exec_subReg : exec (.subReg x y) s = .next (State.advance (State.flagThenResult s x
    (subWrap (State.readV s x) (State.readV s y)) (strictlyGreater (State.readV s x) (State.readV s y)))) := rfl

theorem exec_subnReg : exec (.subnReg x y) s = .next (State.advance (State.flagThenResult s x
    (subWrap (State.readV s y) (State.readV s x)) (strictlyGreater (State.readV s y) (State.readV s x)))) := rfl

theorem exec_shr : exec (.shr x y) s = .next (State.advance (State.flagThenResult s x
    (shiftRight (State.readV s x)) (outRight (State.readV s x)))) := rfl

theorem exec_shl : exec (.shl x y) s = .next (State.advance (State.flagThenResult s x
    (shiftLeft (State.readV s x)) (outLeft (State.readV s x)))) := rfl

theorem exec_rnd (kk : Byte) : exec (.rnd x kk) s = .next (State.advance
    (State.setV { s with draws := s.draws + 1 } x (Config.rnd s.draws &&& kk))) := rfl

end Answers

/-! ### The statements -/

/-- Settles O15: each operation writes back one byte, whose bits are those of the operands combined one by one. -/
theorem bitwiseOperationsLeaveTheFlag : Obligations.BitwiseOperationsLeaveTheFlag := by
  intro s x y
  rw [exec_orReg, exec_andReg, exec_xorReg]
  refine ⟨?_, ?_, ?_⟩
  · obtain ⟨t, ht, hv, hrest⟩ := State.writeBack_spec s x (State.readV s x ||| State.readV s y)
    exact ⟨t, ht, fun k => by rw [hv, BitVec.getLsbD_or], hrest⟩
  · obtain ⟨t, ht, hv, hrest⟩ := State.writeBack_spec s x (State.readV s x &&& State.readV s y)
    exact ⟨t, ht, fun k => by rw [hv, BitVec.getLsbD_and], hrest⟩
  · obtain ⟨t, ht, hv, hrest⟩ := State.writeBack_spec s x (State.readV s x ^^^ State.readV s y)
    exact ⟨t, ht, fun k => by rw [hv, BitVec.getLsbD_xor], hrest⟩

/-- Settles O16: the sum is written first and the carry last. -/
theorem addSetsTheCarryFlag : Obligations.AddSetsTheCarryFlag := by
  intro s x y
  obtain ⟨hflag, hresult, hframe⟩ := State.resultThenFlag_spec s x
    (addWrap (State.readV s x) (State.readV s y)) (carryOut (State.readV s x) (State.readV s y))
  refine ⟨_, exec_addReg x y s, ?_, fun hx => ?_, rfl, hframe⟩
  · rw [hflag, flagByte_carryOut]
  · rw [hresult hx, addWrap_toNat]

/-- Settles O17: the flag is written first and the difference last. -/
theorem subtractSetsTheStrictFlag : Obligations.SubtractSetsTheStrictFlag := fun s x y =>
  ⟨_, exec_subReg x y s, State.subtract_spec s x (State.readV s x) (State.readV s y)⟩

/-- Settles O18: as 8xy5 with `V[y]` as the minuend. -/
theorem reverseSubtractSetsTheStrictFlag : Obligations.ReverseSubtractSetsTheStrictFlag := fun s x y =>
  ⟨_, exec_subnReg x y s, State.subtract_spec s x (State.readV s y) (State.readV s x)⟩

/-- Settles O19: both shifts take their operand from `V[x]`, and write the bit shifted out before the result. -/
theorem shiftsSetTheBitShiftedOut : Obligations.ShiftsSetTheBitShiftedOut := by
  intro s x y
  constructor
  · obtain ⟨hresult, hflag, hframe⟩ :=
      State.flagThenResult_spec s x (shiftRight (State.readV s x)) (outRight (State.readV s x))
    refine ⟨_, exec_shr x y s, ?_, fun hx => ?_, rfl, hframe⟩
    · rw [hresult, shiftRight_toNat]
    · rw [hflag hx, flagByte_outRight]
  · obtain ⟨hresult, hflag, hframe⟩ :=
      State.flagThenResult_spec s x (shiftLeft (State.readV s x)) (outLeft (State.readV s x))
    refine ⟨_, exec_shl x y s, ?_, fun hx => ?_, rfl, hframe⟩
    · rw [hresult, shiftLeft_toNat]
    · rw [hflag hx, flagByte_outLeft]

/-- Settles O20: the byte written is the free byte under the mask, whatever the free byte is. -/
theorem randomByteIsMasked : Obligations.RandomByteIsMasked := by
  intro s x kk
  have hv : State.readV (State.advance (State.setV { s with draws := s.draws + 1 } x (Config.rnd s.draws &&& kk))) x =
      Config.rnd s.draws &&& kk := by
    rw [State.readV_advance, State.readV_setV_self]
  have hframe := (((Frame.refl { regs := [x], draws := true } s).setDraws rfl (s.draws + 1)).setV
    (List.mem_singleton_self x) (Config.rnd s.draws &&& kk)).advance
  refine ⟨_, exec_rnd x s kk, fun k => ?_, ?_, rfl, rfl, hframe⟩
  · rw [hv, BitVec.getLsbD_and]
  · rintro rfl
    exact hv.trans BitVec.and_zero

end Sys2Proof.Machine
end

section
/-! Memory transfer through `I` (42_index_memory.md): inside memory Fx33, Fx55 and Fx65 move their bytes, and outside it
they and the sprite read of Dxyn fault in one and the same way (60_exceptions.md). -/

namespace Sys2Proof.Machine

/-! ### An access that leaves memory -/

theorem State.storeAtIndex_of_outside {s : State} {ins : Instr} {bs : List Byte} (hbs : bs.length ≠ 0)
    (h : 0x1000 < s.i.toNat + bs.length) :
    State.storeAtIndex s ins bs = .next (State.raiseAddress s ins (lowestOutside s.i.toNat)) := by
  simp only [State.storeAtIndex, State.dataAddr, State.memWrite_of_outside hbs h]

@[simp] theorem length_bcdDigits (b : Byte) : (bcdDigits b).length = 3 := rfl

@[simp] theorem State.length_regsUpTo (s : State) (x : Reg) : (State.regsUpTo s x).length = x.toNat + 1 := by
  simp only [State.regsUpTo, moveCount, List.length_map, List.length_range]

/-- Whatever the instruction, an access of which a byte lies above 0xFFF answers the state with the fault recorded: the
lengths of the bytes moved are those of the table (R67). -/
theorem exec_of_outside {i : Instr} {s : State} (hn : dataBytes i ≠ 0) (h : 0x1000 < s.i.toNat + dataBytes i) :
    exec i s = .next (State.raiseAddress s i (lowestOutside s.i.toNat)) := by
  cases i with
  | ldBcd x => exact State.storeAtIndex_of_outside hn h
  | storeRegs x =>
    have hlen := State.length_regsUpTo s x
    exact State.storeAtIndex_of_outside (hlen ▸ hn) (hlen ▸ h)
  | loadRegs x =>
    have hread : State.memRead s (State.dataAddr s) (moveCount x) = .error _ := State.memRead_of_outside hn h
    simp only [exec, execLoadRegs, hread]
    rfl
  | drw x y n =>
    have hread : State.memRead s (State.dataAddr s) n.toNat = .error _ := State.memRead_of_outside hn h
    simp only [exec, execDrw, hread]
    rfl
  | _ => exact absurd rfl hn

theorem lowestOutside_lt (w : Word) : lowestOutside w.toNat < 2 ^ 17 := by
  simp only [lowestOutside, Config.memSize]
  omega

theorem lowestOutside_ofNat_toNat (w : Word) : (BitVec.ofNat 17 (lowestOutside w.toNat)).toNat = max w.toNat 0x1000 :=
  (BitVec.toNat_ofNat _ _).trans (Nat.mod_eq_of_lt (lowestOutside_lt w))

/-- Settles O44: every access outside memory is the same write of the record, whose address fits in its 17 bits. -/
theorem dataAccessOutsideMemoryFaults : Obligations.DataAccessOutsideMemoryFaults := fun _ s hn h =>
  ⟨_, exec_of_outside hn h, rfl, rfl, rfl, rfl, lowestOutside_ofNat_toNat s.i, rfl⟩

/-- Outside memory the record alone changes, with AddressOutOfRange as its kind. -/
theorem exec_outside_changes_only_fault {i : Instr} {s : State} (hn : dataBytes i ≠ 0)
    (h : 0x1000 < s.i.toNat + dataBytes i) :
    ∃ t, exec i s = .next t ∧ t.fault.kind = .addressOutOfRange ∧ t = { s with fault := t.fault } :=
  ⟨_, exec_of_outside hn h, rfl, rfl⟩

/-! ### An access inside memory -/

/-- The state with bytes stored at `I` upward. -/
def State.storeBytes (s : State) (bs : List Byte) : State :=
  { s with mem := Memory.writeAll s.mem s.i.toNat bs }

theorem State.storeAtIndex_of_inside {s : State} {ins : Instr} {bs : List Byte} (h : s.i.toNat + bs.length ≤ 0x1000) :
    State.storeAtIndex s ins bs = .next (State.advance (State.storeBytes s bs)) := by
  simp only [State.storeAtIndex, State.dataAddr, State.memWrite_of_inside h, State.storeBytes]

theorem State.byteAt_storeBytes {s : State} {bs : List Byte} {k : Nat} (h : k < bs.length) :
    State.byteAt (State.storeBytes s bs) (s.i.toNat + k) = bs[k] :=
  Memory.read_writeAll_of_lt h

/-- Bytes stored where bytes may change keep the frame. -/
theorem State.frame_storeBytes {m : MayChange} {s : State} {bs : List Byte}
    (hb : m.bytes = List.range' s.i.toNat bs.length) : Frame m s (State.storeBytes s bs) :=
  { Frame.refl m s with
    bytes := fun c hc => by
      rw [hb, List.mem_range'_1] at hc
      exact Memory.read_writeAll_of_outside (by omega) }

theorem exec_ldFont (x : Reg) (s : State) :
    exec (.ldFont x) s = State.writeIndex s (glyphAddr (State.readV s x)) := rfl

theorem exec_ldBcd_of_inside {x : Reg} {s : State} (h : s.i.toNat + 3 ≤ 0x1000) :
    exec (.ldBcd x) s = .next (State.advance (State.storeBytes s (bcdDigits (State.readV s x)))) :=
  State.storeAtIndex_of_inside h

theorem exec_storeRegs_of_inside {x : Reg} {s : State} (h : s.i.toNat + (x.toNat + 1) ≤ 0x1000) :
    exec (.storeRegs x) s = .next (State.advance (State.storeBytes s (State.regsUpTo s x))) :=
  State.storeAtIndex_of_inside ((State.length_regsUpTo s x).symm ▸ h)

theorem exec_loadRegs_of_inside {x : Reg} {s : State} (h : s.i.toNat + (x.toNat + 1) ≤ 0x1000) :
    exec (.loadRegs x) s =
      .next (State.advance (State.loadV s (Memory.readAll s.mem s.i.toNat (x.toNat + 1)))) := by
  have hread : State.memRead s (State.dataAddr s) (moveCount x) = .ok _ := State.memRead_of_inside (.inr h)
  simp only [exec, execLoadRegs, hread]
  rfl

/-! ### The registers and bytes moved -/

theorem State.getElem_regsUpTo {s : State} {x k : Reg} (h : k.toNat < (State.regsUpTo s x).length) :
    (State.regsUpTo s x)[k.toNat] = State.readV s k := by
  simp [State.regsUpTo]

theorem mem_lowRegs {x k : Reg} : k ∈ lowRegs x ↔ k.toNat ≤ x.toNat := by
  simp only [lowRegs, List.mem_map, List.mem_range]
  constructor
  · rintro ⟨j, hj, rfl⟩
    rw [BitVec.toNat_ofNat]
    omega
  · exact fun h => ⟨k.toNat, by omega, BitVec.eq_of_toNat_eq (by simp)⟩

/-- A register below the count of bytes loaded holds its byte. -/
theorem State.readV_loadV_readAll {s : State} {m : Memory} {a n : Nat} {k : Reg} (h : k.toNat < n) :
    State.readV (State.loadV s (Memory.readAll m a n)) k = Memory.read m (a + k.toNat) := by
  rw [State.readV_loadV, dif_pos ((Memory.length_readAll m a n).symm ▸ h)]
  simp only [Memory.readAll, List.getElem_map, List.getElem_range]

/-- Bytes loaded into registers that may change keep the frame. -/
theorem Frame.loadV {m : MayChange} {s t : State} (h : Frame m s t) {bs : List Byte}
    (hr : ∀ r : Reg, r.toNat < bs.length → r ∈ m.regs) : Frame m s (State.loadV t bs) :=
  { h with
    regs := fun r hn => by
      rw [State.readV_loadV, dif_neg (mt (hr r) hn), h.regs r hn] }

/-! ### The statements -/

/-- Settles O22: five times a byte stays below 65536. -/
theorem fontAddressIsFiveTimesTheDigit : Obligations.FontAddressIsFiveTimesTheDigit := by
  intro s x
  obtain ⟨t, ht, hi, hpc, hframe⟩ := State.writeIndex_spec s (glyphAddr (State.readV s x))
  have hfive : t.i.toNat = (State.readV s x).toNat * 5 := by
    rw [hi, glyphAddr, BitVec.toNat_ofNat]
    simp only [Config.glyphHeight]
    omega
  exact ⟨t, (exec_ldFont x s).trans ht, hfive, hpc, hframe⟩

/-- The three digits of a byte, each below 256 (R174). -/
theorem bcdDigits_toNat (b : Byte) :
    (bcdDigits b)[0].toNat = b.toNat / 100 ∧ (bcdDigits b)[1].toNat = b.toNat / 10 % 10 ∧
      (bcdDigits b)[2].toNat = b.toNat % 10 := by
  simp only [bcdDigits, List.getElem_cons_zero, List.getElem_cons_succ, BitVec.toNat_ofNat]
  omega

/-- Settles O23: the three digits are stored as one list of bytes. -/
theorem bcdStoresThreeDigits : Obligations.BcdStoresThreeDigits := by
  intro s x
  refine ⟨fun h => ?_, fun h => ?_⟩
  · have hstored := fun k (hk : k < 3) => State.byteAt_storeBytes (s := s) (bs := bcdDigits (State.readV s x)) hk
    obtain ⟨hundreds, tens, ones⟩ := bcdDigits_toNat (State.readV s x)
    exact ⟨_, exec_ldBcd_of_inside (by omega), (congrArg BitVec.toNat (hstored 0 (by decide))).trans hundreds,
      (congrArg BitVec.toNat (hstored 1 (by decide))).trans tens,
      (congrArg BitVec.toNat (hstored 2 (by decide))).trans ones, rfl, (State.frame_storeBytes rfl).advance⟩
  · exact exec_outside_changes_only_fault (i := .ldBcd x) (Nat.succ_ne_zero 2) (Nat.add_lt_add_right h 3)

/-- What Fx55 leaves at `I` upward. -/
theorem State.byteAt_storeBytes_regsUpTo {s : State} {x k : Reg} (hk : k.toNat ≤ x.toNat) :
    State.byteAt (State.storeBytes s (State.regsUpTo s x)) (s.i.toNat + k.toNat) = State.readV s k := by
  have hlen : k.toNat < (State.regsUpTo s x).length := by
    rw [State.length_regsUpTo]
    omega
  rw [State.byteAt_storeBytes hlen, State.getElem_regsUpTo]

/-- Settles O24: the registers are stored as one list of bytes, the register's number being its place in it. -/
theorem storeCopiesLowRegistersToMemory : Obligations.StoreCopiesLowRegistersToMemory := by
  intro s x
  refine ⟨fun h => ?_, fun h => exec_outside_changes_only_fault (i := .storeRegs x) (Nat.succ_ne_zero _)
    (Nat.succ_lt_succ h)⟩
  have hframe : Frame { bytes := List.range' s.i.toNat (x.toNat + 1) } s (State.storeBytes s (State.regsUpTo s x)) :=
    State.frame_storeBytes (by rw [State.length_regsUpTo])
  exact ⟨_, exec_storeRegs_of_inside (by omega), fun k hk => State.byteAt_storeBytes_regsUpTo hk, rfl, hframe.advance⟩

/-- Settles O25: the bytes are loaded as one list, the register's number being its place in it. -/
theorem loadCopiesMemoryToLowRegisters : Obligations.LoadCopiesMemoryToLowRegisters := by
  intro s x
  refine ⟨fun h => ?_, fun h => exec_outside_changes_only_fault (i := .loadRegs x) (Nat.succ_ne_zero _)
    (Nat.succ_lt_succ h)⟩
  refine ⟨_, exec_loadRegs_of_inside (by omega), fun k hk => State.readV_loadV_readAll (Nat.lt_succ_of_le hk), rfl, ?_⟩
  refine ((Frame.refl _ s).loadV fun r hr => ?_).advance
  rw [Memory.length_readAll] at hr
  exact mem_lowRegs.mpr (Nat.le_of_lt_succ hr)

/-- Settles O26: the load reads the bytes the store left. -/
theorem storedRegistersLoadBack : Obligations.StoredRegistersLoadBack := by
  intro s t u x hs hstore hmem hi
  have hnext := (exec_storeRegs_of_inside (x := x) (s := s) (by omega)).symm.trans hstore
  cases hnext
  have hu : u.i = s.i := hi
  refine ⟨_, exec_loadRegs_of_inside (by rw [hu]; omega), fun k hk => ?_⟩
  rw [State.readV_advance, State.readV_loadV_readAll (Nat.lt_succ_of_le hk), hmem, hu]
  exact State.byteAt_storeBytes_regsUpTo hk

/-- Settles O27: after the store `PC` is at the first of the two bytes, and the fetch reads them. -/
theorem storeIntoTheNextInstructionIsFetched : Obligations.StoreIntoTheNextInstructionIsFetched := by
  intro s x k j hs hjk hjx hpc
  refine ⟨_, exec_storeRegs_of_inside (x := x) (by omega), ?_⟩
  have hnext : (s.pc + 2).toNat = s.i.toNat + k.toNat := by bv_omega
  have hinside : (s.pc + 2).toNat ≤ 0xFFE := by omega
  have hfetch := State.fetch_of_pc_le_FFE (s := State.advance (State.storeBytes s (State.regsUpTo s x))) hinside
  have hpc2 : (State.advance (State.storeBytes s (State.regsUpTo s x))).pc.toNat = s.i.toNat + k.toNat := hnext
  rw [hfetch, hpc2, Nat.add_assoc, ← hjk, State.byteAt_advance, State.byteAt_advance,
    State.byteAt_storeBytes_regsUpTo (by omega), State.byteAt_storeBytes_regsUpTo hjx]

end Sys2Proof.Machine
end

section
/-! The display (43_display.md): a sprite's rows are few enough that the pixels of its set bits fall on different cells,
so a draw flips exactly the cells under a set bit, and collides where one of these was set. -/

namespace Sys2Proof.Machine

/-! ### The cells under a sprite -/

/-- The rows of the sprite at `I`. -/
def State.spriteRows (s : State) (n : BitVec 4) : List Byte :=
  Memory.readAll s.mem s.i.toNat n.toNat

/-- The pixels under the set bits of a Dxyn's sprite, before wrapping. -/
def State.spriteAt (s : State) (x y : Reg) (n : BitVec 4) : List (Nat × Nat) :=
  spritePixels (State.readV s x).toNat (State.readV s y).toNat 0 (State.spriteRows s n)

theorem State.pairwise_spriteAt (s : State) (x y : Reg) (n : BitVec 4) :
    (State.spriteAt s x y n).Pairwise fun p q => ¬SameCell p q := by
  refine pairwise_spritePixels _ _ _ _ ?_
  rw [State.spriteRows, Memory.length_readAll]
  exact Nat.le_trans (Nat.le_of_lt n.isLt) (by decide)

theorem State.mem_spriteAt {s : State} {x y : Reg} {n : BitVec 4} {p : Nat × Nat} :
    p ∈ State.spriteAt s x y n ↔ ∃ k c, k < n.toNat ∧ c < 8 ∧
      (State.byteAt s (s.i.toNat + k)).getLsbD (7 - c) = true ∧
      p = ((State.readV s x).toNat + c, (State.readV s y).toNat + k) := by
  simp only [State.spriteAt, mem_spritePixels, State.spriteRows, Memory.readAll, List.length_map, List.length_range,
    List.getElem_map, List.getElem_range, exists_prop, Nat.zero_add, State.byteAt]

/-- A set bit of the sprite falls on a cell of the grid exactly where `spriteBit` finds it, by its distance from the
sprite's corner around the grid. -/
theorem State.exists_mem_spriteAt_iff {s : State} {x y : Reg} {n : BitVec 4} {px py : Nat} (hx : px < 64)
    (hy : py < 32) : (∃ p ∈ State.spriteAt s x y n, SameCell p (px, py)) ↔ spriteBit s x y n px py = true := by
  simp only [spriteBit, Bool.and_eq_true, decide_eq_true_eq, SameCell, Config.fbWidth, Config.fbHeight]
  constructor
  · rintro ⟨p, hp, hcol, hrow⟩
    obtain ⟨k, c, hk, hc, hbit, rfl⟩ := State.mem_spriteAt.mp hp
    have hcol' : (px + 64 - (State.readV s x).toNat % 64) % 64 = c := by omega
    have hrow' : (py + 32 - (State.readV s y).toNat % 32) % 32 = k := by omega
    rw [hcol', hrow']
    exact ⟨⟨hc, hk⟩, hbit⟩
  · rintro ⟨⟨hc, hk⟩, hbit⟩
    exact ⟨_, State.mem_spriteAt.mpr ⟨_, _, hk, hc, hbit, rfl⟩, by omega, by omega⟩

/-! ### What a draw leaves -/

/-- The framebuffer and the collision of a Dxyn. -/
def State.blitSprite (s : State) (x y : Reg) (n : BitVec 4) : Framebuffer × Bool :=
  blit (State.spriteAt s x y n) (s.fb, false)

/-- The state a Dxyn leaves, before `PC` moves. -/
def State.drawn (s : State) (x y : Reg) (n : BitVec 4) : State :=
  State.setFlag { s with fb := (State.blitSprite s x y n).1 } (State.blitSprite s x y n).2

/-- A set pixel of the grid lies under a set bit of the sprite. -/
def Collides (s : State) (x y : Reg) (n : BitVec 4) : Prop :=
  ∃ px py, px < 64 ∧ py < 32 ∧ State.pixel s px py = true ∧ spriteBit s x y n px py = true

section Draw

variable {s : State} {x y : Reg} {n : BitVec 4}

theorem exec_drw_of_readable (h : SpriteReadable s n) :
    exec (.drw x y n) s = .next (State.advance (State.drawn s x y n)) := by
  have hin : n.toNat = 0 ∨ s.i.toNat + n.toNat ≤ 0x1000 := h.imp_left (congrArg BitVec.toNat)
  have hread : State.memRead s (State.dataAddr s) n.toNat = .ok (State.spriteRows s n) := State.memRead_of_inside hin
  simp only [exec, execDrw, hread]
  rfl

theorem State.pixel_drawn {px py : Nat} (hx : px < 64) (hy : py < 32) :
    State.pixel (State.drawn s x y n) px py = (State.pixel s px py ^^ spriteBit s x y n px py) := by
  have hflip := get_blit (State.spriteAt s x y n) s.fb false px py (State.pairwise_spriteAt s x y n)
  have hbit : decide (∃ p ∈ State.spriteAt s x y n, SameCell p (px, py)) = spriteBit s x y n px py :=
    Bool.eq_iff_iff.mpr (decide_eq_true_iff.trans (State.exists_mem_spriteAt_iff hx hy))
  exact hflip.trans (congrArg _ hbit)

theorem Framebuffer.get_of_sameCell {fb : Framebuffer} {p q : Nat × Nat} (h : SameCell p q) :
    Framebuffer.get fb p.1 p.2 = Framebuffer.get fb q.1 q.2 := by
  rw [← Framebuffer.get_mod, h.1, h.2, Framebuffer.get_mod]

theorem State.blitSprite_hit_iff : (State.blitSprite s x y n).2 = true ↔ Collides s x y n := by
  rw [State.blitSprite, hit_blit _ _ _ (State.pairwise_spriteAt s x y n), Bool.false_or, List.any_eq_true]
  constructor
  · rintro ⟨p, hp, hset⟩
    have hx : p.1 % 64 < 64 := Nat.mod_lt _ (by decide)
    have hy : p.2 % 32 < 32 := Nat.mod_lt _ (by decide)
    have hcell : SameCell p (p.1 % 64, p.2 % 32) := ⟨(Nat.mod_mod _ _).symm, (Nat.mod_mod _ _).symm⟩
    exact ⟨_, _, hx, hy, (Framebuffer.get_of_sameCell hcell).symm.trans hset,
      (State.exists_mem_spriteAt_iff hx hy).mp ⟨p, hp, hcell⟩⟩
  · rintro ⟨px, py, hx, hy, hset, hbit⟩
    obtain ⟨p, hp, hcell⟩ := (State.exists_mem_spriteAt_iff hx hy).mpr hbit
    exact ⟨p, hp, (Framebuffer.get_of_sameCell hcell).trans hset⟩

theorem State.readV_drawn_VF : State.readV (State.drawn s x y n) VF = flagByte (State.blitSprite s x y n).2 :=
  State.readV_setV_self _ _ _

theorem State.readV_drawn_VF_of_collides (h : Collides s x y n) : State.readV (State.drawn s x y n) VF = 1 := by
  rw [State.readV_drawn_VF, State.blitSprite_hit_iff.mpr h]
  rfl

theorem State.readV_drawn_VF_of_not_collides (h : ¬Collides s x y n) : State.readV (State.drawn s x y n) VF = 0 := by
  rw [State.readV_drawn_VF, Bool.eq_false_iff.mpr (mt State.blitSprite_hit_iff.mp h)]
  rfl

theorem State.readV_drawn_VF_eq_one_iff : State.readV (State.drawn s x y n) VF = 1 ↔ Collides s x y n := by
  refine ⟨fun h => ?_, State.readV_drawn_VF_of_collides⟩
  by_contra hn
  rw [State.readV_drawn_VF_of_not_collides hn] at h
  exact absurd h (by decide)

/-- Replacing the framebuffer, where it may change, keeps the frame. -/
theorem Frame.setFb {m : MayChange} {s t : State} (h : Frame m s t) (hm : m.fb = true) (fb : Framebuffer) :
    Frame m s { t with fb := fb } :=
  { h with fb := fun hne => absurd (hm.symm.trans hne) (by decide) }

theorem State.frame_drawn : Frame { regs := [VF], fb := true } s (State.drawn s x y n) :=
  ((Frame.refl _ s).setFb rfl _).setFlag (List.mem_singleton_self VF) _

/-- With no row there is no bit. -/
theorem spriteBit_zero {px py : Nat} : spriteBit s x y 0 px py = false := by
  simp [spriteBit]

theorem State.drawn_fb_zero (x y : Reg) : (State.drawn s x y 0).fb = s.fb := rfl

end Draw

/-! ### The statements -/

theorem exec_cls (s : State) : exec .cls s = .next (State.advance { s with fb := Framebuffer.blank }) := rfl

/-- Settles O31: 00E0 replaces the framebuffer by the blank one and writes nothing else but `PC`. -/
theorem clearLeavesEveryPixelUnset : Obligations.ClearLeavesEveryPixelUnset := fun s =>
  ⟨_, exec_cls s, Framebuffer.get_blank, rfl, ((Frame.refl _ s).setFb rfl _).advance⟩

/-- Settles O32: the pixels drawn fall on different cells, so each cell is flipped once or not at all. -/
theorem drawXorsTheSpriteIntoEachPixel : Obligations.DrawXorsTheSpriteIntoEachPixel := fun _ _ _ _ h =>
  ⟨_, exec_drw_of_readable h, fun _ _ hx hy => State.pixel_drawn hx hy, rfl, State.frame_drawn.advance⟩

/-- Settles O33: a pixel goes from 1 to 0 exactly where a set pixel lies under a set bit. -/
theorem drawSetsTheCollisionFlag : Obligations.DrawSetsTheCollisionFlag := by
  intro s x y n h
  refine ⟨_, exec_drw_of_readable h, ?_, fun hkept => ?_, ?_⟩
  · rintro ⟨px, py, hx, hy, hset, hoff⟩
    have hbit := (State.pixel_drawn hx hy).symm.trans hoff
    rw [hset, Bool.true_xor, Bool.not_eq_false'] at hbit
    exact State.readV_drawn_VF_of_collides ⟨px, py, hx, hy, hset, hbit⟩
  · refine State.readV_drawn_VF_of_not_collides ?_
    rintro ⟨px, py, hx, hy, hset, hbit⟩
    have hon := (State.pixel_drawn hx hy).symm.trans (hkept px py hx hy hset)
    rw [hset, hbit] at hon
    exact absurd hon (by decide)
  · rintro rfl
    refine ⟨State.readV_drawn_VF_of_not_collides ?_, State.drawn_fb_zero x y⟩
    rintro ⟨px, py, hx, hy, hset, hbit⟩
    rw [spriteBit_zero] at hbit
    exact absurd hbit (by decide)

/-- A draw whose coordinates are not in `VF` leaves its own sprite where it is. -/
theorem spriteBit_drawn {s : State} {x y : Reg} (n : BitVec 4) (px py : Nat) (hx : x ≠ VF) (hy : y ≠ VF) :
    spriteBit (State.advance (State.drawn s x y n)) x y n px py = spriteBit s x y n px py := by
  have hframe : Frame _ s (State.advance (State.drawn s x y n)) := State.frame_drawn.advance
  have hregs : ∀ r, r ≠ VF → State.readV (State.advance (State.drawn s x y n)) r = State.readV s r :=
    fun r hr => hframe.regs r (mt List.mem_singleton.mp hr)
  simp only [spriteBit, hframe.bytes _ List.not_mem_nil, hframe.i rfl, hregs x hx, hregs y hy]

/-- Settles O34: the first draw moves neither the sprite nor its place, so the second flips the same cells back, and
meets a set pixel exactly where the first one set it. -/
theorem drawingTwiceRestoresTheFramebuffer : Obligations.DrawingTwiceRestoresTheFramebuffer := by
  intro s x y n h hx hy
  have hfirst : ∀ {px py}, px < 64 → py < 32 → State.pixel (State.advance (State.drawn s x y n)) px py =
      (State.pixel s px py ^^ spriteBit s x y n px py) := State.pixel_drawn
  refine ⟨_, _, exec_drw_of_readable h, exec_drw_of_readable h, ?_, ?_⟩
  · refine Framebuffer.ext_get fun px hpx py hpy => ?_
    have hsecond := State.pixel_drawn (s := State.advance (State.drawn s x y n)) (x := x) (y := y) (n := n) hpx hpy
    rw [hfirst hpx hpy, spriteBit_drawn n px py hx hy, Bool.xor_assoc, Bool.xor_self, Bool.xor_false] at hsecond
    exact hsecond
  · refine State.readV_drawn_VF_eq_one_iff.trans (exists₂_congr fun px py => ?_)
    refine and_congr_right fun hpx => and_congr_right fun hpy => ?_
    rw [hfirst hpx hpy, spriteBit_drawn n px py hx hy]
    cases State.pixel s px py <;> simp

end Sys2Proof.Machine
end

section
/-! Keypad and timer instructions (44_timer_key.md): a key skip tests the latch bit of the low four bits, Fx15 and Fx18
write one timer, and Fx0A polls for the lowest key down. -/

namespace Sys2Proof.Machine

/-! ### What the instructions answer -/

section Answers

variable (x : Reg) (s : State)

theorem exec_skp : exec (.skp x) s = .next (State.skipIf s (State.keyDown s (State.keyOperand s x))) := rfl

theorem exec_sknp : exec (.sknp x) s = .next (State.skipIf s (!State.keyDown s (State.keyOperand s x))) := rfl

theorem exec_ldDtVx : exec (.ldDtVx x) s = .next (State.advance (State.setDt s (State.readV s x))) := rfl

theorem exec_ldStVx : exec (.ldStVx x) s = .next (State.advance (State.setSt s (State.readV s x))) := rfl

end Answers

theorem exec_ldVxKey_of_none {x : Reg} {s : State} (h : ∀ k, State.keyDown s k = false) :
    exec (.ldVxKey x) s = .next s := by
  simp only [exec, execLdVxKey, (State.lowestKey_eq_none s).mpr h]

theorem exec_ldVxKey_of_some {x : Reg} {s : State} {k : Key} (h : State.lowestKey s = some k) :
    exec (.ldVxKey x) s = .next (State.advance (State.setV s x (k.zeroExtend 8))) := by
  simp only [exec, execLdVxKey, h]

/-! ### The key a key skip tests -/

theorem State.keyOperand_toNat (s : State) (x : Reg) :
    (State.keyOperand s x).toNat = (State.readV s x).toNat % 16 := by
  simp only [State.keyOperand, BitVec.extractLsb'_toNat, Nat.shiftRight_zero]

/-! ### Frames of the timers -/

theorem Frame.setDt {m : MayChange} {s t : State} (h : Frame m s t) (hm : m.dt = true) (b : Byte) :
    Frame m s (State.setDt t b) :=
  { h with dt := fun hne => absurd (hm.symm.trans hne) (by decide) }

theorem Frame.setSt {m : MayChange} {s t : State} (h : Frame m s t) (hm : m.st = true) (b : Byte) :
    Frame m s (State.setSt t b) :=
  { h with st := fun hne => absurd (hm.symm.trans hne) (by decide) }

theorem State.soundActive_iff (s : State) : State.soundActive s = true ↔ s.st ≠ 0 := bne_iff_ne

/-! ### The statements -/

/-- Settles O35: both skips test the latch bit whose number is the low four bits, in opposite senses. -/
theorem keySkipsTestTheSelectedKey : Obligations.KeySkipsTestTheSelectedKey := by
  intro s x k hk
  have hkey : State.keyOperand s x = k := BitVec.eq_of_toNat_eq ((State.keyOperand_toNat s x).trans hk.symm)
  have hsknp : (State.skipIf s (!State.keyDown s k)).pc = if State.keyDown s k = true then s.pc + 2 else s.pc + 4 := by
    rw [State.pc_skipIf]
    cases State.keyDown s k <;> rfl
  rw [exec_skp, exec_sknp, hkey]
  exact ⟨⟨_, rfl, State.pc_skipIf s _, (Frame.refl {} s).skipIf _⟩, ⟨_, rfl, hsknp, (Frame.refl {} s).skipIf _⟩⟩

/-- Settles O37: each instruction writes one timer, a tick then lowers that value, and the schedule of a coincident
`STEP` and `TICK` is the one with the `STEP` first. -/
theorem timersAreSetFromARegister : Obligations.TimersAreSetFromARegister := by
  refine ⟨fun s x => ⟨?_, ?_⟩, rfl, rfl⟩
  · exact ⟨_, exec_ldDtVx x s, rfl, tickTimer_toNat _, rfl, ((Frame.refl _ s).setDt rfl _).advance⟩
  · exact ⟨_, exec_ldStVx x s, rfl, tickTimer_toNat _, State.soundActive_iff _, rfl,
      ((Frame.refl _ s).setSt rfl _).advance⟩

/-- Settles O38: without a key down there is no lowest one; with one, its number is written back. -/
theorem keyWaitPollsForTheLowestKey : Obligations.KeyWaitPollsForTheLowestKey := by
  intro s x
  refine ⟨exec_ldVxKey_of_none, fun k hk hlower => ?_⟩
  obtain ⟨t, ht, hv, hrest⟩ := State.writeBack_spec s x (k.zeroExtend 8)
  have hnumber : (State.readV t x).toNat = k.toNat := by
    rw [hv]
    exact BitVec.toNat_setWidth_of_le (by decide)
  exact ⟨t, (exec_ldVxKey_of_some ((State.lowestKey_eq_some s).mpr ⟨hk, hlower⟩)).trans ht, hnumber, hrest⟩

end Sys2Proof.Machine
end

section
/-! The engine's `STEP` (10_state.md R43): what it answers by the fault record, the fetch and the decoding, in that
order. -/

namespace Sys2Proof.Machine

section

variable {s : State}

/-! ### What a step answers -/

theorem step_of_agenda_nil (h : s.agenda = []) : step s = engineStep s := by
  rw [step, nextTransaction, h]

theorem State.faulted_eq_false_iff : State.faulted s = false ↔ s.fault.kind = .none := by
  rw [State.faulted, bne_eq_false_iff_eq]

theorem engineStep_of_fault (h : s.fault.kind ≠ .none) : engineStep s = .next s :=
  if_pos (bne_iff_ne.mpr h)

theorem engineStep_of_fetch_ok {w : Word} (hk : s.fault.kind = .none) (hf : State.fetch s = .ok w) :
    engineStep s = runWord w s := by
  rw [engineStep, State.faulted_eq_false_iff.mpr hk, hf]
  rfl

theorem engineStep_of_fetch_error {a : Nat} (hk : s.fault.kind = .none) (hf : State.fetch s = .error a) :
    engineStep s = .next (State.raiseFetch s a) := by
  rw [engineStep, State.faulted_eq_false_iff.mpr hk, hf]
  rfl

theorem runWord_of_decode {w : Word} {i : Instr} (h : decode w = .ok i) : runWord w s = exec i s := by
  rw [runWord, h]

theorem runWord_of_not_legalWord {w : Word} (h : LegalWord w = false) :
    runWord w s = .next (State.raise s .unknownInstruction w 0) := by
  rw [runWord, decode_of_not_legalWord h]

theorem engineStep_of_decode {i : Instr} (hk : s.fault.kind = .none) (hpc : s.pc.toNat ≤ 0xFFE)
    (hi : decode (wordOfBytes (State.byteAt s s.pc.toNat) (State.byteAt s (s.pc.toNat + 1))) = .ok i) :
    engineStep s = exec i s :=
  (engineStep_of_fetch_ok hk (State.fetch_of_pc_le_FFE hpc)).trans (runWord_of_decode hi)

/-! ### The wait for a key -/

theorem isKeyWait_iff {w : Word} : isKeyWait w = true ↔ ∃ x, decode w = .ok (.ldVxKey x) := by
  unfold isKeyWait
  split
  next x h => exact iff_of_true rfl ⟨x, h⟩
  next h => exact iff_of_false Bool.false_ne_true fun ⟨x, hx⟩ => h x hx

theorem State.isNone_lowestKey_iff : (State.lowestKey s).isNone = true ↔ ∀ k, State.keyDown s k = false :=
  Option.isNone_iff_eq_none.trans (State.lowestKey_eq_none s)

theorem State.awaitingInput_of_fetch_ok {w : Word} (hf : State.fetch s = .ok w) :
    State.awaitingInput s = true ↔ s.fault.kind = .none ∧ (∃ x, decode w = .ok (.ldVxKey x)) ∧
      ∀ k, State.keyDown s k = false := by
  rw [State.awaitingInput, hf]
  simp only [Bool.and_eq_true, Bool.not_eq_true', State.faulted_eq_false_iff, isKeyWait_iff,
    State.isNone_lowestKey_iff, and_assoc]

theorem State.awaitingInput_of_fetch_error {a : Nat} (hf : State.fetch s = .error a) :
    State.awaitingInput s = false := by
  rw [State.awaitingInput, hf]

/-- The output by its parts: the fetch answers a word exactly where `PC` is at most 0xFFE. -/
theorem State.awaitingInput_iff : State.awaitingInput s = true ↔ s.fault.kind = .none ∧ s.pc.toNat ≤ 0xFFE ∧
    (∃ x, decode (wordOfBytes (State.byteAt s s.pc.toNat) (State.byteAt s (s.pc.toNat + 1))) = .ok (.ldVxKey x)) ∧
    ∀ k, State.keyDown s k = false := by
  obtain hpc | hpc := le_or_gt s.pc.toNat 0xFFE
  · rw [State.awaitingInput_of_fetch_ok (State.fetch_of_pc_le_FFE hpc)]
    simp only [hpc, true_and]
  · rw [State.awaitingInput_of_fetch_error (State.fetch_of_FFE_lt_pc hpc)]
    exact iff_of_false Bool.false_ne_true fun h => Nat.not_le.mpr hpc h.2.1

end

/-- Settles O39: where the output is 1 the step runs an Fx0A that finds no key down. -/
theorem awaitingInputIsAStutter : Obligations.AwaitingInputIsAStutter := by
  intro s
  refine ⟨State.awaitingInput_iff, fun hwait hagenda => ?_⟩
  obtain ⟨hk, hpc, ⟨x, hx⟩, hkeys⟩ := State.awaitingInput_iff.mp hwait
  rw [step_of_agenda_nil hagenda, engineStep_of_decode hk hpc hx, exec_ldVxKey_of_none hkeys]

/-! ### The step and its faults -/

/-- Settles O40: a scheduled `STEP` is the same engine step, from the state with the `STEP` off the schedule. -/
theorem stepRunsTheDecodedInstruction : Obligations.StepRunsTheDecodedInstruction := by
  intro s i rest hk hpc hi
  refine ⟨fun h => ?_, fun h => ?_⟩
  · rw [step_of_agenda_nil h, engineStep_of_decode hk hpc hi]
  · rw [step_of_agenda_cons h]
    exact engineStep_of_decode (s := { s with agenda := rest }) hk hpc hi

/-- Settles O42: the word fetched is refused by the decoder, and the step only raises. -/
theorem illegalWordRaisesUnknownInstruction : Obligations.IllegalWordRaisesUnknownInstruction := by
  intro s w hagenda hk hpc hw hillegal
  rw [step_of_agenda_nil hagenda, engineStep_of_fetch_ok hk (State.fetch_of_pc_le_FFE hpc), ← hw,
    runWord_of_not_legalWord hillegal]
  rfl

/-- A fetch fault writes the record and counts a draw. -/
theorem State.frame_raiseFetch (s : State) (a : Nat) :
    Frame { fault := true, draws := true } s (State.raiseFetch s a) :=
  { Frame.refl _ s with
    fault := fun hne => absurd hne (by decide)
    draws := fun hne => absurd hne (by decide) }

/-- Settles O43: the fetch above 0xFFE answers the lowest address out of range, which the record takes. -/
theorem fetchOutsideMemoryFaults : Obligations.FetchOutsideMemoryFaults := by
  intro s hagenda hk hpc
  have hstep : step s = .next (State.raiseFetch s (lowestOutside s.pc.toNat)) := by
    rw [step_of_agenda_nil hagenda, engineStep_of_fetch_error hk (State.fetch_of_FFE_lt_pc hpc)]
  exact ⟨_, hstep, rfl, rfl, rfl, lowestOutside_ofNat_toNat s.pc, rfl, State.frame_raiseFetch s _⟩

/-! ### The host's placed word -/

theorem decode_tableWord {nbits w : Nat} {i : Instr} (h : decodeTableWord nbits w = some i) :
    decode (tableWord nbits w) = .ok i := by
  rw [decodeTableWord, decodeBytes, wordOfBytes_hiByte_loByte] at h
  cases hd : decode (tableWord nbits w) with
  | error e =>
    rw [hd] at h
    exact absurd h (by simp [Except.map])
  | ok j =>
    rw [hd] at h
    exact congrArg Except.ok (Option.some.inj h)

/-- The fetch reads the word placed. -/
theorem State.fetch_placeWord (s : State) (w : Word) : State.fetch (State.placeWord s w) = .ok w := by
  have hle := State.fetchablePc_le s
  have hbyte : ∀ k (hk : k < 2), State.byteAt (State.placeWord s w) ((State.fetchablePc s).toNat + k) =
      [hiByte w, loByte w][k] := fun k hk => Memory.read_writeAll_of_lt hk
  have hword : wordOfBytes (State.byteAt (State.placeWord s w) (State.fetchablePc s).toNat)
      (State.byteAt (State.placeWord s w) ((State.fetchablePc s).toNat + 1)) = w :=
    (congrArg₂ wordOfBytes (hbyte 0 (by decide)) (hbyte 1 (by decide))).trans (wordOfBytes_hiByte_loByte w)
  exact (State.fetch_of_pc_le (s := State.placeWord s w) hle).trans (congrArg Except.ok hword)

/-- Settles O41: nothing is scheduled or recorded in the prepared state, so the step fetches the placed word and runs
the instruction it decodes to. -/
theorem placedWordIsTheNextInstruction : Obligations.PlacedWordIsTheNextInstruction := by
  intro s nbits w i h
  have hfetch : State.fetch (State.withFetchWord s nbits w) = .ok (tableWord nbits w) := State.fetch_placeWord s _
  rw [step_of_agenda_nil rfl, engineStep_of_fetch_ok rfl hfetch, runWord_of_decode (decode_tableWord h)]

end Sys2Proof.Machine
end

section
/-! What the execute phase can do, said once for every instruction: it completes, moving `PC` by its class and writing
within its footprint (10_state.md R20, R26), or it raises its own fault (60_exceptions.md R227), or `SP` is past the
call stack. The rules about all instructions are read off this one case analysis. -/

namespace Sys2Proof.Machine

/-! ### Completing -/

/-- An instruction completes: `PC` moves by its class, what it writes lies within its footprint, and no fault is
recorded. `SP` stays a legal index and memory stays canonical. -/
structure Completes (i : Instr) (s t : State) : Prop where
  pc : t.pc = nextPc i s
  frame : Frame (footprint i s) s t
  fault : t.fault = s.fault
  sp : s.sp.toNat ≤ 15 → t.sp.toNat ≤ 15
  wf : Memory.wf s.mem → Memory.wf t.mem

section

variable {i : Instr} {s t : State}

/-- An instruction that leaves `SP` and memory alone. -/
theorem Completes.of_frame (hpc : t.pc = nextPc i s) (hframe : Frame (footprint i s) s t) (hfault : t.fault = s.fault)
    (hsp : t.sp = s.sp) (hmem : t.mem = s.mem) : Completes i s t where
  pc := hpc
  frame := hframe
  fault := hfault
  sp h := hsp ▸ h
  wf h := hmem ▸ h

/-- An instruction that writes one register back. -/
theorem Completes.writeBack {x : Reg} {r : Byte} (hpc : nextPc i s = s.pc + 2) (hx : x ∈ (footprint i s).regs) :
    Completes i s (State.advance (State.setV s x r)) :=
  .of_frame hpc.symm ((Frame.refl _ s).setV hx r).advance rfl rfl rfl

/-- An instruction that writes its result and then the flag. -/
theorem Completes.resultThenFlag {x : Reg} {r : Byte} {c : Bool} (hpc : nextPc i s = s.pc + 2)
    (hregs : (footprint i s).regs = [x, VF]) : Completes i s (State.advance (State.resultThenFlag s x r c)) := by
  refine .of_frame hpc.symm ((Frame.refl _ s).resultThenFlag ?_ ?_ r c).advance rfl rfl rfl
  · exact hregs ▸ List.mem_cons_self
  · exact hregs ▸ List.mem_cons_of_mem x (List.mem_singleton_self VF)

/-- An instruction that writes the flag and then its result. -/
theorem Completes.flagThenResult {x : Reg} {r : Byte} {c : Bool} (hpc : nextPc i s = s.pc + 2)
    (hregs : (footprint i s).regs = [x, VF]) : Completes i s (State.advance (State.flagThenResult s x r c)) := by
  refine .of_frame hpc.symm ((Frame.refl _ s).flagThenResult ?_ ?_ r c).advance rfl rfl rfl
  · exact hregs ▸ List.mem_cons_self
  · exact hregs ▸ List.mem_cons_of_mem x (List.mem_singleton_self VF)

/-- An instruction that writes `PC` alone. -/
theorem Completes.goto {w : Word} (hpc : w = nextPc i s) : Completes i s (State.goto s w) :=
  .of_frame hpc ((Frame.refl _ s).goto w) rfl rfl rfl

/-- An instruction that writes `I`. -/
theorem Completes.writeIndex {w : Word} (hpc : nextPc i s = s.pc + 2) (hi : (footprint i s).i = true) :
    Completes i s (State.advance (State.setI s w)) :=
  .of_frame hpc.symm ((Frame.refl _ s).setI hi w).advance rfl rfl rfl

/-- An instruction that stores bytes at `I` inside memory. -/
theorem Completes.storeBytes {bs : List Byte} (hpc : nextPc i s = s.pc + 2)
    (hb : (footprint i s).bytes = List.range' s.i.toNat bs.length) (h : s.i.toNat + bs.length ≤ 0x1000) :
    Completes i s (State.advance (State.storeBytes s bs)) where
  pc := hpc.symm
  frame := (State.frame_storeBytes hb).advance
  fault := rfl
  sp hsp := hsp
  wf hwf := Memory.wf_writeAll bs hwf h

end

/-! ### `PC` by class -/

theorem addrWord_eq_ofNat (nnn : Addr12) : addrWord nnn = BitVec.ofNat 16 nnn.toNat :=
  BitVec.eq_of_toNat_eq (by rw [addrWord_toNat, BitVec.toNat_ofNat]; omega)

theorem addrWord_add_wideV_eq_ofNat (s : State) (nnn : Addr12) (x : Reg) :
    addrWord nnn + State.wideV s x = BitVec.ofNat 16 (nnn.toNat + (State.readV s x).toNat) :=
  BitVec.eq_of_toNat_eq (by rw [toNat_addrWord_add_wideV, BitVec.toNat_ofNat]; omega)

theorem State.keyOperand_eq_ofNat (s : State) (x : Reg) :
    State.keyOperand s x = BitVec.ofNat 4 ((State.readV s x).toNat % 16) :=
  BitVec.eq_of_toNat_eq (by rw [State.keyOperand_toNat, BitVec.toNat_ofNat]; omega)

/-! ### Instructions that raise no fault -/

/-- The instructions that cannot fault complete (R140, R200). -/
theorem exec_completes_of_no_fault (s : State) {i : Instr} (hi : executeFault i = none) :
    ∃ t, exec i s = .next t ∧ Completes i s t := by
  cases i with
  | cls => exact ⟨_, exec_cls s, .of_frame rfl ((Frame.refl _ s).setFb rfl _).advance rfl rfl rfl⟩
  | jp nnn => exact ⟨_, exec_jp nnn s, .goto (addrWord_eq_ofNat nnn)⟩
  | jpV0 nnn => exact ⟨_, exec_jpV0 nnn s, .goto (addrWord_add_wideV_eq_ofNat s nnn 0)⟩
  | seImm x kk => exact ⟨_, exec_seImm x kk s, .goto (by simp [nextPc])⟩
  | sneImm x kk => exact ⟨_, exec_sneImm x kk s, .goto (by simp [nextPc])⟩
  | seReg x y => exact ⟨_, exec_seReg x y s, .goto (by simp [nextPc])⟩
  | sneReg x y => exact ⟨_, exec_sneReg x y s, .goto (by simp [nextPc])⟩
  | skp x => exact ⟨_, exec_skp x s, .goto (by simp [nextPc, State.keyOperand_eq_ofNat])⟩
  | sknp x => exact ⟨_, exec_sknp x s, .goto (by simp [nextPc, State.keyOperand_eq_ofNat])⟩
  | ldImm x kk => exact ⟨_, exec_ldImm x kk s, .writeBack rfl List.mem_cons_self⟩
  | addImm x kk => exact ⟨_, exec_addImm x kk s, .writeBack rfl List.mem_cons_self⟩
  | ldReg x y => exact ⟨_, exec_ldReg x y s, .writeBack rfl List.mem_cons_self⟩
  | orReg x y => exact ⟨_, exec_orReg x y s, .writeBack rfl List.mem_cons_self⟩
  | andReg x y => exact ⟨_, exec_andReg x y s, .writeBack rfl List.mem_cons_self⟩
  | xorReg x y => exact ⟨_, exec_xorReg x y s, .writeBack rfl List.mem_cons_self⟩
  | addReg x y => exact ⟨_, exec_addReg x y s, .resultThenFlag rfl rfl⟩
  | subReg x y => exact ⟨_, exec_subReg x y s, .flagThenResult rfl rfl⟩
  | shr x y => exact ⟨_, exec_shr x y s, .flagThenResult rfl rfl⟩
  | subnReg x y => exact ⟨_, exec_subnReg x y s, .flagThenResult rfl rfl⟩
  | shl x y => exact ⟨_, exec_shl x y s, .flagThenResult rfl rfl⟩
  | ldI nnn => exact ⟨_, exec_ldI nnn s, .writeIndex rfl rfl⟩
  | addI x => exact ⟨_, exec_addI x s, .writeIndex rfl rfl⟩
  | ldFont x => exact ⟨_, exec_ldFont x s, .writeIndex rfl rfl⟩
  | rnd x kk =>
    have hframe := ((Frame.refl (footprint (.rnd x kk) s) s).setDraws rfl (s.draws + 1)).setV
      (x := x) List.mem_cons_self (Config.rnd s.draws &&& kk)
    exact ⟨_, exec_rnd x s kk, .of_frame rfl hframe.advance rfl rfl rfl⟩
  | ldVxDt x => exact ⟨_, exec_ldVxDt x s, .writeBack rfl List.mem_cons_self⟩
  | ldDtVx x => exact ⟨_, exec_ldDtVx x s, .of_frame rfl ((Frame.refl _ s).setDt rfl _).advance rfl rfl rfl⟩
  | ldStVx x => exact ⟨_, exec_ldStVx x s, .of_frame rfl ((Frame.refl _ s).setSt rfl _).advance rfl rfl rfl⟩
  | ldVxKey x =>
    cases hkey : State.lowestKey s with
    | none =>
      have hup := (State.lowestKey_eq_none s).mp hkey
      exact ⟨_, exec_ldVxKey_of_none hup, .of_frame (if_pos hup).symm (Frame.refl _ s) rfl rfl rfl⟩
    | some k =>
      have hdown : ¬∀ j, State.keyDown s j = false := by
        rw [← State.lowestKey_eq_none, hkey]
        exact Option.some_ne_none k
      exact ⟨_, exec_ldVxKey_of_some hkey, .writeBack (if_neg hdown) List.mem_cons_self⟩
  | ret | call _ | ldBcd _ | storeRegs _ | loadRegs _ | drw _ _ _ => exact absurd hi (Option.some_ne_none _)

/-! ### Instructions that can fault -/

/-- What the record takes as its address: the lowest one out of range for AddressOutOfRange, else 0 (R221 to R224). -/
def faultAddr (k : FaultKind) (s : State) : Nat :=
  if k = .addressOutOfRange then lowestOutside s.i.toNat else 0

/-- The instruction raises its own fault. -/
def Raises (i : Instr) (s : State) : Prop :=
  ∃ k, executeFault i = some k ∧ exec i s = .next (State.raise s k (encode i) (faultAddr k s))

theorem raises_of_outside {i : Instr} {s : State} (hi : executeFault i = some .addressOutOfRange)
    (hn : dataBytes i ≠ 0) (h : 0x1000 < s.i.toNat + dataBytes i) : Raises i s :=
  ⟨_, hi, exec_of_outside hn h⟩

theorem exec_ret_cases (s : State) :
    (∃ t, exec .ret s = .next t ∧ Completes .ret s t) ∨ Raises .ret s ∨ 16 ≤ s.sp.toNat := by
  by_cases h0 : s.sp = 0
  · exact .inr (.inl ⟨_, rfl, exec_ret_of_empty h0⟩)
  · obtain h16 | h16 := Nat.lt_or_ge s.sp.toNat 16
    · have hpc : s.stack[s.sp.toNat] + 2 = nextPc .ret s := by simp [nextPc, Vector.getD, h16]
      have hsp : (s.sp - 1).toNat ≤ 15 := by bv_omega
      exact .inl ⟨_, exec_ret_of_entry h0 h16, hpc, ((Frame.refl _ s).setSp rfl _).goto _, rfl, fun _ => hsp, fun h => h⟩
    · exact .inr (.inr h16)

theorem exec_call_cases (s : State) (nnn : Addr12) :
    (∃ t, exec (.call nnn) s = .next t ∧ Completes (.call nnn) s t) ∨ Raises (.call nnn) s ∨ 16 ≤ s.sp.toNat := by
  by_cases h15 : s.sp = 15
  · exact .inr (.inl ⟨_, rfl, exec_call_of_full nnn h15⟩)
  · obtain h16 | h16 := Nat.lt_or_ge s.sp.toNat 16
    · have hroom : s.sp.toNat + 1 < 16 := by bv_omega
      refine .inl ⟨_, exec_call_of_room nnn hroom, addrWord_eq_ofNat nnn, ?_, rfl, fun h => ?_, fun h => h⟩
      · exact (((Frame.refl _ s).setEntry hroom List.mem_cons_self s.pc).setSp rfl _).goto _
      · exact (State.sp_add_one_toNat (by omega)).trans_le (Nat.le_of_lt_succ hroom)
    · exact .inr (.inr h16)

theorem exec_ldBcd_cases (s : State) (x : Reg) :
    (∃ t, exec (.ldBcd x) s = .next t ∧ Completes (.ldBcd x) s t) ∨ Raises (.ldBcd x) s := by
  obtain h | h := le_or_gt (s.i.toNat + 3) 0x1000
  · exact .inl ⟨_, exec_ldBcd_of_inside h, .storeBytes rfl rfl h⟩
  · exact .inr (raises_of_outside rfl (Nat.succ_ne_zero 2) h)

theorem exec_storeRegs_cases (s : State) (x : Reg) :
    (∃ t, exec (.storeRegs x) s = .next t ∧ Completes (.storeRegs x) s t) ∨ Raises (.storeRegs x) s := by
  obtain h | h := le_or_gt (s.i.toNat + (x.toNat + 1)) 0x1000
  · have hlen := (State.length_regsUpTo s x).symm
    exact .inl ⟨_, exec_storeRegs_of_inside h, .storeBytes rfl (hlen ▸ rfl) (hlen ▸ h)⟩
  · exact .inr (raises_of_outside rfl (Nat.succ_ne_zero _) h)

theorem exec_loadRegs_cases (s : State) (x : Reg) :
    (∃ t, exec (.loadRegs x) s = .next t ∧ Completes (.loadRegs x) s t) ∨ Raises (.loadRegs x) s := by
  obtain h | h := le_or_gt (s.i.toNat + (x.toNat + 1)) 0x1000
  · have hframe : Frame (footprint (.loadRegs x) s) s
        (State.loadV s (Memory.readAll s.mem s.i.toNat (x.toNat + 1))) := by
      refine (Frame.refl _ s).loadV fun r hr => List.mem_append_left _ (mem_lowRegs.mpr ?_)
      rw [Memory.length_readAll] at hr
      exact Nat.le_of_lt_succ hr
    exact .inl ⟨_, exec_loadRegs_of_inside h, .of_frame rfl hframe.advance rfl rfl rfl⟩
  · exact .inr (raises_of_outside rfl (Nat.succ_ne_zero _) h)

theorem exec_drw_cases (s : State) (x y : Reg) (n : BitVec 4) :
    (∃ t, exec (.drw x y n) s = .next t ∧ Completes (.drw x y n) s t) ∨ Raises (.drw x y n) s := by
  by_cases h : SpriteReadable s n
  · have hframe : Frame (footprint (.drw x y n) s) s (State.drawn s x y n) :=
      ((Frame.refl _ s).setFb rfl _).setFlag List.mem_cons_self _
    exact .inl ⟨_, exec_drw_of_readable h, .of_frame rfl hframe.advance rfl rfl rfl⟩
  · obtain ⟨hn, hout⟩ := not_or.mp h
    have hn' : n.toNat ≠ 0 := fun e => hn (BitVec.eq_of_toNat_eq e)
    exact .inr (raises_of_outside rfl hn' (Nat.lt_of_not_le hout))

/-- All the execute phase can do: complete, raise the instruction's own fault, or, with `SP` past the call stack,
stop. -/
theorem exec_cases (i : Instr) (s : State) :
    (∃ t, exec i s = .next t ∧ Completes i s t) ∨ Raises i s ∨ (16 ≤ s.sp.toNat ∧ ∃ f, exec i s = .fault f) := by
  cases i with
  | ret => exact (exec_ret_cases s).imp_right (.imp_right fun h => ⟨h, _, exec_ret_of_no_entry h⟩)
  | call nnn => exact (exec_call_cases s nnn).imp_right (.imp_right fun h => ⟨h, _, exec_call_of_no_entry nnn h⟩)
  | ldBcd x => exact (exec_ldBcd_cases s x).imp_right .inl
  | storeRegs x => exact (exec_storeRegs_cases s x).imp_right .inl
  | loadRegs x => exact (exec_loadRegs_cases s x).imp_right .inl
  | drw x y n => exact (exec_drw_cases s x y n).imp_right .inl
  | _ => exact .inl (exec_completes_of_no_fault s rfl)

/-- A next state of the execute phase is that of an instruction that completes, or differs in the record alone. -/
theorem exec_next_cases {i : Instr} {s t : State} (h : exec i s = .next t) :
    Completes i s t ∨ ∃ k, executeFault i = some k ∧ t = State.raise s k (encode i) (faultAddr k s) := by
  obtain ⟨u, hu, hc⟩ | ⟨k, hk, hr⟩ | ⟨_, f, hf⟩ := exec_cases i s
  · cases hu.symm.trans h
    exact .inl hc
  · cases hr.symm.trans h
    exact .inr ⟨k, hk, rfl⟩
  · exact absurd (hf.symm.trans h) (by simp)

/-! ### The rules of all instructions -/

theorem executeFault_ne_none (i : Instr) : executeFault i ≠ some .none := by
  cases i <;> nofun

/-- Settles O54: an instruction that does not complete records a fault, whose kind is not `none`. -/
theorem programCounterAdvancesByClass : Obligations.ProgramCounterAdvancesByClass := by
  intro i s t _ h hk
  obtain hc | ⟨k, hki, rfl⟩ := exec_next_cases h
  · exact hc.pc
  · have hnone : k = .none := hk
    exact absurd (hnone ▸ hki) (executeFault_ne_none i)

/-- A fault raised is a write of the record. -/
theorem Frame.raise {m : MayChange} {s : State} (hm : m.fault = true) (k : FaultKind) (op : Word) (a : Nat) :
    Frame m s (State.raise s k op a) :=
  { Frame.refl m s with fault := fun hne => absurd (hm.symm.trans hne) (by decide) }

/-- Settles O55: an instruction that completes keeps its frame, and one that raises has the record in its footprint. -/
theorem instructionsWriteOnlyTheirFootprint : Obligations.InstructionsWriteOnlyTheirFootprint := by
  intro i s t h
  obtain hc | ⟨k, hk, rfl⟩ := exec_next_cases h
  · exact hc.frame
  · exact Frame.raise (Option.isSome_of_eq_some hk) k _ _

/-- Settles O47: an instruction that completes records no fault, so a recorded one is the instruction's own. -/
theorem instructionsRaiseOnlyTheirOwnFault : Obligations.InstructionsRaiseOnlyTheirOwnFault := by
  intro i s t hs h ht
  obtain hc | ⟨k, hk, rfl⟩ := exec_next_cases h
  · rw [hc.fault] at ht
    exact absurd hs ht
  · exact hk

/-- Settles O46: of the ways a step from a state without a fault can go, those that record one write the record, and
after a failed fetch the count of draws. -/
theorem faultingStepChangesOnlyTheRecord : Obligations.FaultingStepChangesOnlyTheRecord := by
  intro s t hagenda hk h ht
  rw [step_of_agenda_nil hagenda] at h
  obtain ⟨hne, _⟩ | ⟨_, _, e⟩ | ⟨_, _, w, _, ⟨_, _, e⟩ | ⟨i, _, e⟩⟩ := engineStep_cases s
  · exact absurd hk hne
  · cases e.symm.trans h
    exact ⟨rfl, rfl⟩
  · cases e.symm.trans h
    exact ⟨rfl, rfl⟩
  · obtain hc | ⟨k, _, rfl⟩ := exec_next_cases (e.symm.trans h)
    · rw [hc.fault] at ht
      exact absurd hk ht
    · exact ⟨rfl, rfl⟩

end Sys2Proof.Machine
end

section
/-! The environment's transactions (10_state.md R41 to R45): a `TICK` lowers the timers, a `KEY` writes one latch bit,
both in every condition of the block, and `RESET` leaves the image over zeroes. -/

namespace Sys2Proof.Machine

/-! ### The statements of `TICK`, `KEY` and the recorded fault -/

theorem transact_tick (s : State) : transact .tick s = .next (State.tick s) := rfl

theorem transact_key (k : Key) (down : Bool) (s : State) :
    transact (.key k down) s = .next (State.setKey s k down) := rfl

theorem State.keyDown_setKey_self (s : State) (k : Key) (down : Bool) :
    State.keyDown (State.setKey s k down) k = down := by
  rw [State.keyDown_setKey, if_pos rfl]

theorem State.keyDown_setKey_of_ne (s : State) {k j : Key} (down : Bool) (h : j ≠ k) :
    State.keyDown (State.setKey s k down) j = State.keyDown s j := by
  rw [State.keyDown_setKey, if_neg h]

/-- Settles O49: the tick is performed whatever the record holds. -/
theorem tickLowersEachTimerByOne : Obligations.TickLowersEachTimerByOne := fun _ _ h =>
  ⟨_, (step_of_agenda_cons h).trans (transact_tick _), tickTimer_toNat _, tickTimer_toNat _, rfl⟩

/-- Settles O50: the key change is performed whatever the record holds. -/
theorem keySetsOneLatchBit : Obligations.KeySetsOneLatchBit := fun s k down rest h =>
  ⟨_, (step_of_agenda_cons h).trans (transact_key k down _), State.keyDown_setKey_self { s with agenda := rest } k down,
    fun _ hj => State.keyDown_setKey_of_ne { s with agenda := rest } down hj, rfl⟩

/-- Settles O48: with a fault recorded a `STEP` keeps the state, and a `TICK` and a `KEY` act as without one. -/
theorem recordedFaultStaysUntilReset : Obligations.RecordedFaultStaysUntilReset := by
  intro s hfault hreset
  cases hs : s.agenda with
  | nil =>
    have hstep : step s = .next s := (step_of_agenda_nil hs).trans (engineStep_of_fault hfault)
    exact ⟨s, hstep, rfl, fun _ => rfl, nofun, nofun, nofun⟩
  | cons tr rest =>
    have hstep := step_of_agenda_cons hs
    cases tr with
    | reset image => exact absurd hs (hreset image rest)
    | step =>
      have hkeep : engineStep { s with agenda := rest } = .next { s with agenda := rest } := engineStep_of_fault hfault
      refine ⟨_, hstep.trans hkeep, rfl, nofun, ?_, nofun, nofun⟩
      rintro _ ⟨⟩
      rfl
    | tick =>
      refine ⟨_, hstep, rfl, nofun, nofun, ?_, nofun⟩
      rintro _ ⟨⟩
      exact ⟨tickTimer_toNat _, tickTimer_toNat _, rfl, rfl⟩
    | key k down =>
      refine ⟨_, hstep, rfl, nofun, nofun, nofun, ?_⟩
      rintro _ _ _ ⟨⟩
      exact ⟨State.keyDown_setKey_self { s with agenda := rest } k down,
        fun _ hj => State.keyDown_setKey_of_ne { s with agenda := rest } down hj, rfl, rfl, rfl⟩

/-! ### Reset -/

/-- Loading an image: at each address the byte loaded there last, else what stood there. -/
theorem Memory.read_image (image : List (Addr12 × Byte)) (m : Memory) (a : Nat) :
    Memory.read (image.foldl (fun m p => Memory.write m p.1.toNat p.2) m) a =
      ((image.reverse.find? fun p => p.1.toNat == a).map (·.2)).getD (Memory.read m a) := by
  induction image generalizing m with
  | nil => rfl
  | cons p image ih =>
    rw [List.foldl_cons, ih, Memory.read_write, List.reverse_cons, List.find?_append]
    cases image.reverse.find? fun p => p.1.toNat == a with
    | some q => rfl
    | none =>
      by_cases hp : p.1.toNat = a
      · simp [hp]
      · simp [hp, Ne.symm hp]

/-- Settles O51: the loads are folded over the empty memory, and the rest is the reset state. -/
theorem resetLoadsTheImageOverZeroes : Obligations.ResetLoadsTheImageOverZeroes := fun _ image _ h =>
  ⟨_, (step_of_agenda_cons h).trans (transact_reset image _), Memory.read_image image [], rfl⟩

/-- Settles O53: each field of the reset state by its definition. -/
theorem resetStateHoldsTheResetValues : Obligations.ResetStateHoldsTheResetValues := by
  refine ⟨rfl, fun _ => rfl, rfl, fun x => ?_, rfl, fun k hk => ?_, rfl, rfl, Framebuffer.get_blank, fun k => ?_, rfl⟩
  · exact Vector.getElem_replicate x.isLt
  · exact Vector.getElem?_replicate_of_lt hk
  · exact Vector.getElem_replicate k.isLt

end Sys2Proof.Machine
end

section
/-! The invariant (10_state.md R27, R33; 60_exceptions.md R221 to R224): every fault is recorded as its own rule says,
the execute phase keeps `SP` and memory legal, and so each transaction keeps the invariant and, from it, answers a next
state. -/

namespace Sys2Proof.Machine

/-! ### The records the faults leave -/

section Records

variable {pc : Word}

theorem legalRecord_clear : LegalRecord FaultRecord.clear :=
  ⟨fun _ => rfl, nofun, nofun, nofun, nofun, nofun, nofun, nofun⟩

theorem legalRecord_unknownInstruction {op : Word} (hpc : pc.toNat ≤ 0xFFE) (hop : LegalWord op = false) :
    LegalRecord ⟨.unknownInstruction, pc, op, true, 0⟩ :=
  ⟨nofun, fun _ => ⟨rfl, rfl, hop⟩, nofun, nofun, nofun, nofun, nofun, fun _ => hpc⟩

theorem legalRecord_stackOverflow (nnn : Addr12) (hpc : pc.toNat ≤ 0xFFE) :
    LegalRecord ⟨.stackOverflow, pc, encode (.call nnn), true, 0⟩ :=
  ⟨nofun, nofun, fun _ => ⟨rfl, rfl, (encodedInItsRow (.call nnn)).2⟩, nofun, nofun, nofun, nofun, fun _ => hpc⟩

theorem legalRecord_stackUnderflow (hpc : pc.toNat ≤ 0xFFE) :
    LegalRecord ⟨.stackUnderflow, pc, encode .ret, true, 0⟩ :=
  ⟨nofun, nofun, nofun, fun _ => ⟨rfl, rfl, rfl⟩, nofun, nofun, nofun, fun _ => hpc⟩

/-- An address out of range is at least 0x1000. -/
theorem le_lowestOutside_ofNat_toNat (w : Word) : 0x1000 ≤ (BitVec.ofNat 17 (lowestOutside w.toNat)).toNat := by
  rw [lowestOutside_ofNat_toNat]
  exact Nat.le_max_right _ _

theorem legalRecord_dataAddress (i : Instr) (a : Word) (hpc : pc.toNat ≤ 0xFFE) :
    LegalRecord ⟨.addressOutOfRange, pc, encode i, true, BitVec.ofNat 17 (lowestOutside a.toNat)⟩ :=
  ⟨nofun, nofun, nofun, nofun, fun _ => le_lowestOutside_ofNat_toNat a, fun _ _ => legalWord_encode i, nofun,
    fun _ => hpc⟩

theorem legalRecord_fetchAddress (op : Word) :
    LegalRecord ⟨.addressOutOfRange, pc, op, false, BitVec.ofNat 17 (lowestOutside pc.toNat)⟩ :=
  ⟨nofun, nofun, nofun, nofun, fun _ => le_lowestOutside_ofNat_toNat pc, nofun,
    fun _ _ => lowestOutside_ofNat_toNat pc, nofun⟩

end Records

/-- The fault of an instruction that was fetched is recorded as its rule says. -/
theorem legalRecord_raise {i : Instr} {k : FaultKind} {s : State} (hk : executeFault i = some k)
    (hpc : s.pc.toNat ≤ 0xFFE) : LegalRecord (State.raise s k (encode i) (faultAddr k s)).fault := by
  cases i with
  | ret => cases hk; exact legalRecord_stackUnderflow hpc
  | call nnn => cases hk; exact legalRecord_stackOverflow nnn hpc
  | ldBcd _ | storeRegs _ | loadRegs _ | drw _ _ _ => cases hk; exact legalRecord_dataAddress _ s.i hpc
  | _ => nomatch hk

/-! ### The transactions keep the invariant -/

/-- A write of the record alone keeps the invariant where the record is legal. -/
theorem Inv.setFault {s t : State} (h : Inv s) (hmem : t.mem = s.mem) (hsp : t.sp = s.sp) (hf : LegalRecord t.fault) :
    Inv t := by
  obtain ⟨hwf, hle, _⟩ := h
  exact ⟨hmem ▸ hwf, hsp ▸ hle, hf⟩

theorem inv_of_exec {i : Instr} {s t : State} (h : Inv s) (hpc : s.pc.toNat ≤ 0xFFE) (he : exec i s = .next t) :
    Inv t := by
  obtain hc | ⟨k, hk, rfl⟩ := exec_next_cases he
  · obtain ⟨hwf, hle, hrecord⟩ := h
    exact ⟨hc.wf hwf, hc.sp hle, hc.fault ▸ hrecord⟩
  · exact h.setFault rfl rfl (legalRecord_raise hk hpc)

theorem inv_of_engineStep {s t : State} (h : Inv s) (he : engineStep s = .next t) : Inv t := by
  obtain ⟨_, e⟩ | ⟨_, _, e⟩ | ⟨_, hpc, w, _, ⟨x, hd, e⟩ | ⟨i, _, e⟩⟩ := engineStep_cases s
  · cases e.symm.trans he
    exact h
  · cases e.symm.trans he
    exact h.setFault rfl rfl (legalRecord_fetchAddress _)
  · cases e.symm.trans he
    have hillegal : LegalWord w = false := by
      rw [Bool.eq_false_iff, ne_eq, legalWord_iff_exists_decode, hd]
      rintro ⟨i, hi⟩
      cases hi
    exact h.setFault rfl rfl (legalRecord_unknownInstruction (Nat.le_of_add_le_add_right hpc) hillegal)
  · exact inv_of_exec h (Nat.le_of_add_le_add_right hpc) (e.symm.trans he)

theorem inv_of_transact {tr : Transaction} {s t : State} (h : Inv s) (he : transact tr s = .next t) : Inv t := by
  cases tr with
  | reset image =>
    cases he
    exact ⟨State.relaunch_wf s image, Nat.zero_le 15, legalRecord_clear⟩
  | step => exact inv_of_engineStep h he
  | tick => cases he; exact h
  | key k down => cases he; exact h

/-- Settles O58: a step is one transaction, from a state that differs in the schedule alone. -/
theorem everyStepKeepsTheInvariant : Obligations.EveryStepKeepsTheInvariant := by
  intro s t h hstep
  cases hs : s.agenda with
  | nil => exact inv_of_engineStep h ((step_of_agenda_nil hs).symm.trans hstep)
  | cons tr rest => exact inv_of_transact (s := { s with agenda := rest }) h ((step_of_agenda_cons hs).symm.trans hstep)

/-- Settles O59: at reset memory and the call stack are empty and nothing is recorded. -/
theorem resetStateMeetsTheInvariant : Obligations.ResetStateMeetsTheInvariant :=
  ⟨State.reset_wf, Nat.zero_le 15, legalRecord_clear⟩

/-! ### Progress -/

theorem exists_next_exec (i : Instr) {s : State} (h : s.sp.toNat ≤ 15) : ∃ t, exec i s = .next t := by
  obtain ⟨t, ht, _⟩ | ⟨_, _, hr⟩ | ⟨h16, _⟩ := exec_cases i s
  · exact ⟨t, ht⟩
  · exact ⟨_, hr⟩
  · omega

theorem exists_next_engineStep {s : State} (h : s.sp.toNat ≤ 15) : ∃ t, engineStep s = .next t := by
  obtain ⟨_, e⟩ | ⟨_, _, e⟩ | ⟨_, _, _, _, ⟨_, _, e⟩ | ⟨i, _, e⟩⟩ := engineStep_cases s
  · exact ⟨_, e⟩
  · exact ⟨_, e⟩
  · exact ⟨_, e⟩
  · exact e ▸ exists_next_exec i h

theorem exists_next_transact (tr : Transaction) {s : State} (h : s.sp.toNat ≤ 15) : ∃ t, transact tr s = .next t := by
  cases tr with
  | step => exact exists_next_engineStep h
  | reset _ | tick | key _ _ => exact ⟨_, rfl⟩

/-- Settles O60: the model stops only with `SP` past the call stack, which the invariant rules out. -/
theorem noLegalStateStopsTheModel : Obligations.NoLegalStateStopsTheModel := by
  rintro s ⟨_, hsp, _⟩
  cases hs : s.agenda with
  | nil => exact step_of_agenda_nil hs ▸ exists_next_engineStep hsp
  | cons tr rest => exact step_of_agenda_cons hs ▸ exists_next_transact tr (s := { s with agenda := rest }) hsp

end Sys2Proof.Machine
end

section
/-! The timers and the environment against the instructions: only Fx15 and Fx18 set a timer (10_state.md), and a change
of timers or latch commutes with every instruction that does not use them (20_memory.md). -/

namespace Sys2Proof.Machine

/-! ### Which instruction can raise a timer -/

theorem exists_ldDtVx_of_footprint {i : Instr} {s : State} (h : (footprint i s).dt = true) : ∃ x, i = .ldDtVx x := by
  cases i with
  | ldDtVx x => exact ⟨x, rfl⟩
  | _ => nomatch h

theorem exists_ldStVx_of_footprint {i : Instr} {s : State} (h : (footprint i s).st = true) : ∃ x, i = .ldStVx x := by
  cases i with
  | ldStVx x => exact ⟨x, rfl⟩
  | _ => nomatch h

/-- An instruction that changes the delay timer is an Fx15. -/
theorem exists_ldDtVx_of_dt_ne {i : Instr} {s t : State} (h : exec i s = .next t) (hne : t.dt ≠ s.dt) :
    ∃ x, i = .ldDtVx x :=
  exists_ldDtVx_of_footprint (Bool.of_not_eq_false (mt (instructionsWriteOnlyTheirFootprint i s t h).dt hne))

/-- An instruction that changes the sound timer is an Fx18. -/
theorem exists_ldStVx_of_st_ne {i : Instr} {s t : State} (h : exec i s = .next t) (hne : t.st ≠ s.st) :
    ∃ x, i = .ldStVx x :=
  exists_ldStVx_of_footprint (Bool.of_not_eq_false (mt (instructionsWriteOnlyTheirFootprint i s t h).st hne))

theorem State.instrAtPc_of_decode {s : State} {w : Word} {i : Instr} (hf : State.fetch s = .ok w)
    (hd : decode w = .ok i) : State.instrAtPc s = some i := by
  rw [State.instrAtPc, hf]
  exact congrArg Except.toOption hd

/-- An engine step keeps both timers, or it executes the instruction at `PC`. -/
theorem engineStep_timers {s t : State} (h : engineStep s = .next t) :
    (t.dt = s.dt ∧ t.st = s.st) ∨
    (s.fault.kind = .none ∧ ∃ i, State.instrAtPc s = some i ∧ exec i s = .next t) := by
  obtain ⟨_, e⟩ | ⟨_, _, e⟩ | ⟨hk, _, w, hf, ⟨_, _, e⟩ | ⟨i, hd, e⟩⟩ := engineStep_cases s
  · cases e.symm.trans h
    exact .inl ⟨rfl, rfl⟩
  · cases e.symm.trans h
    exact .inl ⟨rfl, rfl⟩
  · cases e.symm.trans h
    exact .inl ⟨rfl, rfl⟩
  · exact .inr ⟨hk, i, State.instrAtPc_of_decode hf hd, e.symm.trans h⟩

/-- A step raises no timer, or a `STEP` is due and executes the instruction at `PC`, from a state with the timers of
`s`. -/
theorem step_timers {s t : State} (h : step s = .next t) :
    (t.dt.toNat ≤ s.dt.toNat ∧ t.st.toNat ≤ s.st.toNat) ∨
    (s.fault.kind = .none ∧ (s.agenda = [] ∨ ∃ rest, s.agenda = .step :: rest) ∧
      ∃ i u, State.instrAtPc s = some i ∧ exec i u = .next t ∧ u.dt = s.dt ∧ u.st = s.st) := by
  cases hs : s.agenda with
  | nil =>
    obtain ⟨hdt, hst⟩ | ⟨hk, i, hi, he⟩ := engineStep_timers ((step_of_agenda_nil hs).symm.trans h)
    · exact .inl ⟨(congrArg _ hdt).le, (congrArg _ hst).le⟩
    · exact .inr ⟨hk, .inl rfl, i, s, hi, he, rfl, rfl⟩
  | cons tr rest =>
    have htr := (step_of_agenda_cons hs).symm.trans h
    cases tr with
    | step =>
      obtain ⟨hdt, hst⟩ | ⟨hk, i, hi, he⟩ := engineStep_timers htr
      · exact .inl ⟨(congrArg _ hdt).le, (congrArg _ hst).le⟩
      · exact .inr ⟨hk, .inr ⟨rest, rfl⟩, i, _, hi, he, rfl, rfl⟩
    | reset image =>
      cases htr
      exact .inl ⟨Nat.zero_le _, Nat.zero_le _⟩
    | tick =>
      cases htr
      exact .inl ⟨(tickTimer_toNat _).trans_le (Nat.sub_le _ _), (tickTimer_toNat _).trans_le (Nat.sub_le _ _)⟩
    | key k down =>
      cases htr
      exact .inl ⟨le_rfl, le_rfl⟩

/-- Settles O56: a timer that rose was changed by the instruction executed, which is the one that sets it. -/
theorem timerRisesOnlyWhenSet : Obligations.TimerRisesOnlyWhenSet := by
  intro s t h
  obtain ⟨hdt, hst⟩ | ⟨hk, hdue, i, u, hi, he, hudt, hust⟩ := step_timers h
  · exact ⟨fun hlt => absurd hdt (Nat.not_le.mpr hlt), fun hlt => absurd hst (Nat.not_le.mpr hlt)⟩
  · refine ⟨fun hlt => ⟨hk, hdue, ?_⟩, fun hlt => ⟨hk, hdue, ?_⟩⟩
    · have hne : t.dt ≠ u.dt := fun e => hlt.ne (congrArg _ (e.trans hudt).symm)
      obtain ⟨x, rfl⟩ := exists_ldDtVx_of_dt_ne he hne
      exact ⟨x, hi⟩
    · have hne : t.st ≠ u.st := fun e => hlt.ne (congrArg _ (e.trans hust).symm)
      obtain ⟨x, rfl⟩ := exists_ldStVx_of_st_ne he hne
      exact ⟨x, hi⟩

/-! ### The environment against an instruction -/

/-- The answer with its next state changed. -/
def mapNext (f : State → State) : Answer → Answer
  | .next t => .next (f t)
  | .fault r => .fault r
  | .refused r => .refused r

/-- A change of the timers and the latch, each by itself: what a `TICK` and a `KEY` have in common. -/
def State.mapEnv (fd fs : Byte → Byte) (fk : Vector Bool 16 → Vector Bool 16) (s : State) : State :=
  { s with dt := fd s.dt, st := fs s.st, key := fk s.key }

/-- The instruction reads or sets a timer. -/
def UsesTimers (i : Instr) : Prop := ∃ x, i = .ldVxDt x ∨ i = .ldDtVx x ∨ i = .ldStVx x

/-- The instruction reads the latch. -/
def UsesLatch (i : Instr) : Prop := ∃ x, i = .skp x ∨ i = .sknp x ∨ i = .ldVxKey x

section Commutes

variable (fd fs : Byte → Byte) (fk : Vector Bool 16 → Vector Bool 16) (s : State)

/-- The statement for one instruction. -/
def CommutesWithEnv (i : Instr) : Prop :=
  exec i (State.mapEnv fd fs fk s) = mapNext (State.mapEnv fd fs fk) (exec i s)

theorem commutesWithEnv_of_outside {i : Instr} (hn : dataBytes i ≠ 0) (h : 0x1000 < s.i.toNat + dataBytes i) :
    CommutesWithEnv fd fs fk s i := by
  rw [CommutesWithEnv, exec_of_outside hn h, exec_of_outside (s := State.mapEnv fd fs fk s) hn h]
  rfl

theorem commutesWithEnv_ret : CommutesWithEnv fd fs fk s .ret := by
  rw [CommutesWithEnv]
  by_cases h0 : s.sp = 0
  · rw [exec_ret_of_empty h0, exec_ret_of_empty (s := State.mapEnv fd fs fk s) h0]
    rfl
  · obtain h | h := Nat.lt_or_ge s.sp.toNat 16
    · rw [exec_ret_of_entry h0 h, exec_ret_of_entry (s := State.mapEnv fd fs fk s) h0 h]
      rfl
    · rw [exec_ret_of_no_entry h, exec_ret_of_no_entry (s := State.mapEnv fd fs fk s) h]
      rfl

theorem commutesWithEnv_call (nnn : Addr12) : CommutesWithEnv fd fs fk s (.call nnn) := by
  rw [CommutesWithEnv]
  by_cases h15 : s.sp = 15
  · rw [exec_call_of_full nnn h15, exec_call_of_full (s := State.mapEnv fd fs fk s) nnn h15]
    rfl
  · obtain h | h := Nat.lt_or_ge s.sp.toNat 16
    · have hroom : s.sp.toNat + 1 < 16 := by bv_omega
      rw [exec_call_of_room nnn hroom, exec_call_of_room (s := State.mapEnv fd fs fk s) nnn hroom]
      rfl
    · rw [exec_call_of_no_entry nnn h, exec_call_of_no_entry (s := State.mapEnv fd fs fk s) nnn h]
      rfl

theorem commutesWithEnv_ldBcd (x : Reg) : CommutesWithEnv fd fs fk s (.ldBcd x) := by
  obtain h | h := le_or_gt (s.i.toNat + 3) 0x1000
  · rw [CommutesWithEnv, exec_ldBcd_of_inside h, exec_ldBcd_of_inside (s := State.mapEnv fd fs fk s) h]
    rfl
  · exact commutesWithEnv_of_outside fd fs fk s (Nat.succ_ne_zero 2) h

theorem commutesWithEnv_storeRegs (x : Reg) : CommutesWithEnv fd fs fk s (.storeRegs x) := by
  obtain h | h := le_or_gt (s.i.toNat + (x.toNat + 1)) 0x1000
  · rw [CommutesWithEnv, exec_storeRegs_of_inside h, exec_storeRegs_of_inside (s := State.mapEnv fd fs fk s) h]
    rfl
  · exact commutesWithEnv_of_outside fd fs fk s (Nat.succ_ne_zero _) h

theorem commutesWithEnv_loadRegs (x : Reg) : CommutesWithEnv fd fs fk s (.loadRegs x) := by
  obtain h | h := le_or_gt (s.i.toNat + (x.toNat + 1)) 0x1000
  · rw [CommutesWithEnv, exec_loadRegs_of_inside h, exec_loadRegs_of_inside (s := State.mapEnv fd fs fk s) h]
    rfl
  · exact commutesWithEnv_of_outside fd fs fk s (Nat.succ_ne_zero _) h

theorem commutesWithEnv_drw (x y : Reg) (n : BitVec 4) : CommutesWithEnv fd fs fk s (.drw x y n) := by
  by_cases h : SpriteReadable s n
  · rw [CommutesWithEnv, exec_drw_of_readable h, exec_drw_of_readable (s := State.mapEnv fd fs fk s) h]
    rfl
  · obtain ⟨hn, hout⟩ := not_or.mp h
    have hn' : n.toNat ≠ 0 := fun e => hn (BitVec.eq_of_toNat_eq e)
    exact commutesWithEnv_of_outside fd fs fk s hn' (Nat.lt_of_not_le hout)

theorem commutesWithEnv_ldVxKey (x : Reg) : CommutesWithEnv fd fs id s (.ldVxKey x) := by
  rw [CommutesWithEnv]
  cases hkey : State.lowestKey s with
  | none =>
    have hup := (State.lowestKey_eq_none s).mp hkey
    rw [exec_ldVxKey_of_none hup, exec_ldVxKey_of_none (s := State.mapEnv fd fs id s) hup]
    rfl
  | some k =>
    rw [exec_ldVxKey_of_some hkey, exec_ldVxKey_of_some (s := State.mapEnv fd fs id s) hkey]
    rfl

/-- An instruction commutes with a change of the environment that leaves alone what the instruction uses of it. -/
theorem commutesWithEnv {i : Instr} (ht : UsesTimers i → fd = id ∧ fs = id) (hk : UsesLatch i → fk = id) :
    CommutesWithEnv fd fs fk s i := by
  cases i with
  | ret => exact commutesWithEnv_ret fd fs fk s
  | call nnn => exact commutesWithEnv_call fd fs fk s nnn
  | ldBcd x => exact commutesWithEnv_ldBcd fd fs fk s x
  | storeRegs x => exact commutesWithEnv_storeRegs fd fs fk s x
  | loadRegs x => exact commutesWithEnv_loadRegs fd fs fk s x
  | drw x y n => exact commutesWithEnv_drw fd fs fk s x y n
  | ldVxDt x =>
    obtain ⟨rfl, rfl⟩ := ht ⟨x, .inl rfl⟩
    rfl
  | ldDtVx x =>
    obtain ⟨rfl, rfl⟩ := ht ⟨x, .inr (.inl rfl)⟩
    rfl
  | ldStVx x =>
    obtain ⟨rfl, rfl⟩ := ht ⟨x, .inr (.inr rfl)⟩
    rfl
  | skp x =>
    obtain rfl := hk ⟨x, .inl rfl⟩
    rfl
  | sknp x =>
    obtain rfl := hk ⟨x, .inr (.inl rfl)⟩
    rfl
  | ldVxKey x =>
    obtain rfl := hk ⟨x, .inr (.inr rfl)⟩
    exact commutesWithEnv_ldVxKey fd fs s x
  | _ => rfl

end Commutes

theorem State.tick_eq_mapEnv (s : State) : State.tick s = State.mapEnv tickTimer tickTimer id s := rfl

theorem State.setKey_eq_mapEnv (s : State) (k : Key) (down : Bool) :
    State.setKey s k down = State.mapEnv id id (·.set k.toNat down k.isLt) s := rfl

/-- Settles O57: a tick leaves the latch alone and a key change the timers. -/
theorem environmentCommutesWithOtherInstructions : Obligations.EnvironmentCommutesWithOtherInstructions := by
  intro i s t h
  refine ⟨fun hi => ?_, fun hi k down => ?_⟩
  · have hunused : ¬UsesTimers i := by
      rintro ⟨x, hx⟩
      obtain ⟨h1, h2, h3⟩ := hi x
      exact hx.elim h1 (·.elim h2 h3)
    have hcomm := commutesWithEnv tickTimer tickTimer id s (i := i) (absurd · hunused) fun _ => rfl
    rw [State.tick_eq_mapEnv, State.tick_eq_mapEnv]
    exact Eq.trans hcomm (congrArg (mapNext _) h)
  · have hunused : ¬UsesLatch i := by
      rintro ⟨x, hx⟩
      obtain ⟨h1, h2, h3⟩ := hi x
      exact hx.elim h1 (·.elim h2 h3)
    have hcomm := commutesWithEnv id id (·.set k.toNat down k.isLt) s (i := i) (fun _ => ⟨rfl, rfl⟩) (absurd · hunused)
    rw [State.setKey_eq_mapEnv, State.setKey_eq_mapEnv]
    exact Eq.trans hcomm (congrArg (mapNext _) h)

end Sys2Proof.Machine
end
